-- ==== Sys2Proof/Word.lean ====
section
/-!
DEFINITION. The bit values of the block (spec/00_scope.md R10) and the enumerations of its state
(spec/10_state.md R21, R29, R30, R31). Bit 0 of a value is the least significant one, and the first in time
where the value is a frame (R11).
-/

namespace Sys2Proof

/-- A bit or a line level (R10). -/
abbrev Bit := BitVec 1

/-- A byte, `bits8`. -/
abbrev Byte := BitVec 8

/-- A frame value, `bits11` (R80). -/
abbrev Frame := BitVec 11

/-- The document's TransferMode (R21). -/
inductive Mode where
  | read
  | write
deriving DecidableEq, Repr, Inhabited

/-- The document's WriteState.outcome (R30). -/
inductive TxOutcome where
  | inactive
  | active
  | success
  | failure
deriving DecidableEq, Repr, Inhabited

/-- The document's CompletionGate, one flag of capacity 1 (R29). -/
inductive Gate where
  | taken
  | available
deriving DecidableEq, Repr, Inhabited

/-- How the host drives CLOCK (R31). -/
inductive ClkDrv where
  | released
  | low
deriving DecidableEq, Repr, Inhabited

/-- How the host drives DATA (R31). -/
inductive DataDrv where
  | released
  | low
  | high
deriving DecidableEq, Repr, Inhabited

end Sys2Proof
end

