-- ==== Sys2Proof/Machine/Codec.lean ====
section
/-!
DEFINITION. The pure functions of spec/40_codec.md and the places of bits in a frame (spec/30_encoding.md R80 to R86).
They read no field and write no field (R110).
-/

namespace Sys2Proof

/-- Bit `i` of a value, as a bit. -/
def bitAt {w : Nat} (v : BitVec w) (i : Nat) : Bit := BitVec.ofBool (v.getLsbD i)

/-- The number of set bits of a byte, an integer 0..8 (R111). -/
def popcount (b : Byte) : Nat :=
  (bitAt b 0).toNat + (bitAt b 1).toNat + (bitAt b 2).toNat + (bitAt b 3).toNat
    + (bitAt b 4).toNat + (bitAt b 5).toNat + (bitAt b 6).toNat + (bitAt b 7).toNat

/-- `PARITY(b)`: odd parity, 1 exactly when the byte has an even number of set bits (R111). -/
def parityOf (b : Byte) : Bit := if popcount b % 2 = 0 then 1#1 else 0#1

/-- `CHKPAR(b, r)` (R113). -/
def chkParity (b : Byte) (r : Bit) : Bool := r = parityOf b

/-- A frame from its fields, stop bit first: `{1, p, b, 0}` (R80). -/
def frameOf (p : Bit) (b : Byte) : Frame := (((1#1 ++ p) ++ b) ++ 0#1 : BitVec 11)

/-- `MKFRAME(b)` (R114). -/
def mkFrame (b : Byte) : Frame := frameOf (parityOf b) b

/-- `FRAMEBIT(f, i)` (R115). -/
def frameBit (f : Frame) (i : Nat) : Bit := bitAt f i

/-- `UNFRAME(f)`: the data field `f[8:1]` (R116). -/
def unframe (f : Frame) : Byte := f.extractLsb' 1 8

/-- A valid frame value (R116). -/
def Frame.valid (f : Frame) : Bool :=
  frameBit f 0 = 0#1 && frameBit f 10 = 1#1 && frameBit f 9 = parityOf (unframe f)

/-- The resend command (R86). -/
def resendByte : Byte := 0xFE#8

/-- The byte with bit `i` replaced (RX.DATA's store, R85). -/
def setBit (b : Byte) (i : Nat) (d : Bit) : Byte :=
  if d = 1#1 then b ||| (1#8 <<< i) else b &&& ~~~(1#8 <<< i)

/-- The byte that bits 1 to 8 of a frame give when they are stored one by one, least significant first, as RX.DATA stores
them: the "same LSB-first extraction" of R116. -/
def replayData (f : Frame) : Byte :=
  (List.range 8).foldl (fun acc i => setBit acc i (frameBit f (i + 1))) 0#8

/-- The parity property of R117, at one byte: the parity bit is 1 exactly for an even count of set bits (R112). -/
def parityProperty (b : Byte) : Bool := decide (parityOf b = 1#1 ↔ popcount b % 2 = 0)

/-- The check property of R117, at one byte: a byte's own parity bit matches (R113). -/
def checkProperty (b : Byte) : Bool := chkParity b (parityOf b)

/-- The round-trip property of R117, at one byte: the data bits of the frame built from it, read as the field `f[8:1]` or
replayed one by one, give it back (R116). -/
def roundTripProperty (b : Byte) : Bool := unframe (mkFrame b) = b && replayData (mkFrame b) = b

/-- A property evaluated at all 256 bytes, which decides it (R117). -/
def everyByte (p : Byte → Bool) : Bool := (List.range 256).all fun n => p (BitVec.ofNat 8 n)

/-- The document's properties of the codec's functions, gathered (R117). -/
def codecProperties : Bool := everyByte parityProperty && everyByte checkProperty && everyByte roundTripProperty

/-- The wire string of a frame: its bits in time order (R11). -/
def wireBits (f : Frame) : List Bit := (List.range 11).map (frameBit f)

end Sys2Proof
end

