-- ==== Sys2Proof/Config.lean ====
section
/-!
DEFINITION. The parameters of spec/00_scope.md R9 and the free values of the model. A `Config` is plain data that the
state carries and no step writes (assumption log 4), so that a statement about every state covers every value of every
parameter.
-/

namespace Sys2Proof

/-- What a write timeout does to the gate (R170). -/
inductive GiveupPolicy where
  | keep
  | release
deriving DecidableEq, Repr

/-- The parameters of R9. -/
structure Config where
  /-- `LINE_CFG_CAN_FAIL` (R142). -/
  lineCfgCanFail : Bool
  /-- `GIVEUP_POLICY` (R170). -/
  giveupPolicy : GiveupPolicy
  /-- `INBOX_CAPACITY` (R173); `none` is unbounded. -/
  inboxCapacity : Option Nat
  /-- `T_INHIBIT` in microseconds (R245): the length of the trace event `Hold`, which changes no state. -/
  tInhibitUs : Nat
  /-- `T_WRITE_TIMEOUT` in microseconds (R246). No rule reads it. -/
  tWriteTimeoutUs : Nat
  /-- `T_READ_TIMEOUT` in microseconds (R247). No rule reads it. -/
  tReadTimeoutUs : Nat
  /-- The bits of a position counter beyond the four that 10 and 11 need (R8, R24). -/
  extraPosBits : Nat
deriving DecidableEq, Repr

/-- The defaults of R9. -/
def Config.default : Config where
  lineCfgCanFail := false
  giveupPolicy := .keep
  inboxCapacity := none
  tInhibitUs := 100
  tWriteTimeoutUs := 500000
  tReadTimeoutUs := 2000000
  extraPosBits := 0

/-- `POS_WIDTH`: the width in bits of the stored position counters (R9, R24; assumption log 3). -/
def Config.posWidth (c : Config) : Nat := 4 + c.extraPosBits

/-- A position as a counter stores it: its low `POS_WIDTH` bits (R24). -/
def Config.storePos (c : Config) (p : Nat) : Nat := p % 2 ^ c.posWidth

/-- FREE VALUE: `tx.frame` after the operation RESET (R220, U6; assumption log 6). -/
opaque Config.freeFrame : Nat → Frame

/-- FREE VALUE: `clk_drv` after a failed line configuration (R142, U4; assumption log 7). -/
opaque Config.freeClkDrv : Nat → ClkDrv

/-- FREE VALUE: `data_drv` after a failed line configuration (R142, U4; assumption log 7). -/
opaque Config.freeDataDrv : Nat → DataDrv

end Sys2Proof
end

