-- ==== Sys2Proof/Syntax.lean ====
section
/-!
DEFINITION. The operations of the block as syntax: one constructor for each mnemonic of spec/opcode_table.json, a row's
position being an operand (R88, R89, R97), and the events that select them (R14, R95). An operation carries what its
rule takes from outside: the sampled DATA level `d`, the byte `b`, the failing step `k` of an `Initiate` it may run.
-/

namespace Sys2Proof

/-- A callback function, by a name of the model's own (R175; assumption log 17). -/
abbrev CallbackRef := BitVec 8

/-- The step of `Initiate` whose line action fails: the environment's input `k` of R142. -/
inductive LineFault where
  | none
  | step4
  | step5
  | step7
deriving DecidableEq, Repr

/-- The operations. -/
inductive Instr where
  /-- RX.START (R126). -/
  | rxStart (d : Bit) (k : LineFault)
  /-- RX.DATA at `rx.pos = p` (R127). -/
  | rxData (p : Nat) (d : Bit)
  /-- RX.PARITY (R128). -/
  | rxParity (d : Bit) (k : LineFault)
  /-- RX.STOP (R129). -/
  | rxStop (d : Bit) (k : LineFault)
  /-- ILLEGAL: an edge at a position outside the document's ranges (R92). -/
  | illegal (m : Mode) (p : Nat)
  /-- TX.IGNORE (R144). -/
  | txIgnore
  /-- TX.BIT at `tx.pos = p` (R145). -/
  | txBit (p : Nat)
  /-- TX.STOP (R146). -/
  | txStop
  /-- TX.ACK (R148). -/
  | txAck (d : Bit)
  /-- TX.START (R141, R142). -/
  | txStart (b : Byte) (k : LineFault)
  /-- TX.COLLECT (R168). -/
  | txCollect
  /-- TX.GIVEUP (R170). -/
  | txGiveup
  /-- RESET (R220). -/
  | reset
  /-- CONFIGURE (R175); `none` is the null callback. -/
  | configure (f : Option CallbackRef)
  /-- READ (R176). -/
  | read
  /-- ENABLE_CB (R177). -/
  | enableCb
  /-- DISABLE_CB (R177). -/
  | disableCb
  /-- PARITY (R111). -/
  | parity (b : Byte)
  /-- CHKPAR (R113). -/
  | chkpar (b : Byte) (r : Bit)
  /-- MKFRAME (R114). -/
  | mkframe (b : Byte)
  /-- FRAME11: a device-to-host frame with parity bit `p` and data `b` (R80, R83; assumption log 21). -/
  | frame11 (p : Bit) (b : Byte)
  /-- EXCHANGE12: a host-to-device exchange of `b` with acknowledgment level `a` (R82; assumption log 22). -/
  | exchange12 (a : Bit) (b : Byte)
deriving DecidableEq, Repr

/-- What an edge performs, before its inputs are filled in: the eight edge operations of R88 and the illegal
selections of R92. -/
inductive EdgeOp where
  | rxStart
  | rxData (p : Nat)
  | rxParity
  | rxStop
  | txIgnore
  | txBit (p : Nat)
  | txStop
  | txAck
  | illegal (m : Mode) (p : Nat)
deriving DecidableEq, Repr

/-- The events (R14, R95). An edge carries the level of CLOCK, what the peripheral puts on DATA and the failing step of
an `Initiate` the edge may run; the last two events are the pseudo-operations of the wire formats. -/
inductive Event where
  | edge (c d : Bit) (k : LineFault)
  | start (b : Byte) (k : LineFault)
  | collect
  | giveup
  | reset
  | configure (f : Option CallbackRef)
  | read
  | enableCb
  | disableCb
  | parity (b : Byte)
  | chkpar (b : Byte) (r : Bit)
  | mkframe (b : Byte)
  | frame11 (p : Bit) (b : Byte)
  | exchange12 (a : Bit) (b : Byte)
deriving DecidableEq, Repr

end Sys2Proof
end

