-- ==== Sys2Proof/WellFormed.lean ====
section
/-!
DEFINITION. The operands an operation may carry: the positions that R88 and R92 give each edge operation. Every other
operand is any value of its type.
-/

namespace Sys2Proof

/-- The positions of RX.DATA (R127). -/
def isDataPos (p : Nat) : Bool := 1 ≤ p && p ≤ 8

/-- The positions of TX.BIT (R145). -/
def isSendBitPos (p : Nat) : Bool := 1 ≤ p && p ≤ 9

/-- The positions that select nothing in a mode, as far as a key can name them (R92, R89). -/
def isIllegalPos (m : Mode) (p : Nat) : Bool :=
  match m with
  | .read => 11 ≤ p && p ≤ 15
  | .write => 12 ≤ p && p ≤ 15

/-- An operation whose operands its rule admits. -/
def Instr.wf : Instr → Bool
  | .rxStart _ _ => true
  | .rxData p _ => isDataPos p
  | .rxParity _ _ => true
  | .rxStop _ _ => true
  | .illegal m p => isIllegalPos m p
  | .txIgnore => true
  | .txBit p => isSendBitPos p
  | .txStop => true
  | .txAck _ => true
  | .txStart _ _ => true
  | .txCollect => true
  | .txGiveup => true
  | .reset => true
  | .configure _ => true
  | .read => true
  | .enableCb => true
  | .disableCb => true
  | .parity _ => true
  | .chkpar _ _ => true
  | .mkframe _ => true
  | .frame11 _ _ => true
  | .exchange12 _ _ => true

end Sys2Proof
end

