-- ==== Sys2Proof/Decode.lean ====
section
/-!
DEFINITION. The operation key K8 of spec/30_encoding.md R89 with its dispatch table (R88), the wire formats F11 and F12
(R80, R82), the numbers of the enumerations (R90, R195), a decoder that is total and refuses by name (R93, U9), and the
encoder. The key is a table index and no state (D13). The places of the operands after the key are the model's own
(assumption log 20).
-/

namespace Sys2Proof

/-- How an operation word is read: the three formats of R97. -/
inductive Format where
  | k8
  | f11
  | f12
deriving DecidableEq, Repr

/-- An operation word: its format and three bytes, the first one the key in format K8 and the low byte of the frame
otherwise. -/
structure OpWord where
  fmt : Format
  b0 : Byte
  b1 : Byte
  b2 : Byte
deriving DecidableEq, Repr

/-- Why a word is refused. -/
inductive DecodeError where
  /-- A reserved key (R93). -/
  | reservedKey (key : Byte)
  /-- A wire word whose start bit is not 0 (R80). -/
  | startBitNotZero
  /-- A wire word whose stop bit is not 1 (R80). -/
  | stopBitNotOne
  /-- A wire word with a bit above its format's length. -/
  | bitsBeyondTheFormat
  /-- An exchange whose parity slot is not `PARITY` of its data, which the block never sends (R82). -/
  | exchangeParityWrong
deriving DecidableEq, Repr

/-! ## Numbers of the enumerations (R90) -/

def Mode.bit : Mode → Bit
  | .read => 0#1
  | .write => 1#1

def Mode.ofBit (b : Bit) : Mode := if b = 0#1 then .read else .write

def TxOutcome.code : TxOutcome → BitVec 2
  | .inactive => 0#2
  | .active => 1#2
  | .success => 2#2
  | .failure => 3#2

def Gate.code : Gate → Bit
  | .taken => 0#1
  | .available => 1#1

def ClkDrv.code : ClkDrv → Bit
  | .released => 0#1
  | .low => 1#1

def DataDrv.code : DataDrv → BitVec 2
  | .released => 0#2
  | .low => 1#2
  | .high => 2#2

/-- The failing step as an operand: 0 for none, then steps 4, 5 and 7 (assumption log 20). -/
def LineFault.code : LineFault → BitVec 2
  | .none => 0#2
  | .step4 => 1#2
  | .step5 => 2#2
  | .step7 => 3#2

def LineFault.ofCode (c : BitVec 2) : LineFault :=
  if c = 0#2 then .none else if c = 1#2 then .step4 else if c = 2#2 then .step5 else .step7

/-! ## The dispatch table of an edge (R88, R92) -/

/-- What an edge performs, by mode and live position. -/
def edgeOpOf (m : Mode) (p : Nat) : EdgeOp :=
  match m with
  | .read =>
    if p = 0 then .rxStart
    else if p ≤ 8 then .rxData p
    else if p = 9 then .rxParity
    else if p = 10 then .rxStop
    else .illegal .read p
  | .write =>
    if p = 0 then .txIgnore
    else if p ≤ 9 then .txBit p
    else if p = 10 then .txStop
    else if p = 11 then .txAck
    else .illegal .write p

/-- The edge operation with its inputs. -/
def EdgeOp.toInstr (o : EdgeOp) (d : Bit) (k : LineFault) : Instr :=
  match o with
  | .rxStart => .rxStart d k
  | .rxData p => .rxData p d
  | .rxParity => .rxParity d k
  | .rxStop => .rxStop d k
  | .txIgnore => .txIgnore
  | .txBit p => .txBit p
  | .txStop => .txStop
  | .txAck => .txAck d
  | .illegal m p => .illegal m p

/-! ## The key and its fields (R89) -/

/-- The key `{ev, m, pos}`; its field `pos` has four bits whatever `POS_WIDTH` is. -/
def keyOf (ev : BitVec 3) (m : Bit) (pos : Nat) : Byte := ((ev ++ m) ++ BitVec.ofNat 4 pos : BitVec 8)

/-- The key of an event whose low five bits are a sub-code. -/
def subKey (ev : BitVec 3) (sub : BitVec 5) : Byte := (ev ++ sub : BitVec 8)

def keyEv (key : Byte) : BitVec 3 := key.extractLsb' 5 3
def keyMode (key : Byte) : Mode := Mode.ofBit (key.extractLsb' 4 1)
def keyPos (key : Byte) : Nat := (key.extractLsb' 0 4).toNat
def keySub (key : Byte) : BitVec 5 := key.extractLsb' 0 5

/-- An edge's operand byte: DATA in bit 0, CLOCK in bit 1, the failing step in bits 3..2. -/
def edgeByte (c d : Bit) (k : LineFault) : Byte := (((0#4 ++ k.code) ++ c) ++ d : BitVec 8)

/-! ## Decoding -/

/-- An operation read from its key and its operand bytes. -/
def decodeKey (key b1 b2 : Byte) : Except DecodeError Instr :=
  match (keyEv key).toNat with
  | 0 => .ok ((edgeOpOf (keyMode key) (keyPos key)).toInstr (b1.extractLsb' 0 1) (.ofCode (b1.extractLsb' 2 2)))
  | 1 => .ok (.txStart b1 (.ofCode (b2.extractLsb' 0 2)))
  | 2 => .ok .txCollect
  | 3 => .ok .txGiveup
  | 4 => .ok .reset
  | 5 =>
    match (keySub key).toNat with
    | 0 => .ok (.configure (if b1.extractLsb' 0 1 = 0#1 then none else some b2))
    | 1 => .ok .read
    | 2 => .ok .enableCb
    | 3 => .ok .disableCb
    | _ => .error (.reservedKey key)
  | 7 =>
    match (keySub key).toNat with
    | 0 => .ok (.parity b1)
    | 1 => .ok (.chkpar b1 (b2.extractLsb' 0 1))
    | 2 => .ok (.mkframe b1)
    | _ => .error (.reservedKey key)
  | _ => .error (.reservedKey key)

/-- A device-to-host frame read from its eleven bits (R80). -/
def decodeFrame (b0 b1 b2 : Byte) : Except DecodeError Instr :=
  let f : Frame := (b1.extractLsb' 0 3 ++ b0 : BitVec 11)
  if b2 ≠ 0#8 ∨ b1.extractLsb' 3 5 ≠ 0#5 then .error .bitsBeyondTheFormat
  else if frameBit f 0 ≠ 0#1 then .error .startBitNotZero
  else if frameBit f 10 ≠ 1#1 then .error .stopBitNotOne
  else .ok (.frame11 (frameBit f 9) (unframe f))

/-- A host-to-device exchange read from its twelve bits (R82). -/
def decodeExchange (b0 b1 b2 : Byte) : Except DecodeError Instr :=
  let f : Frame := (b1.extractLsb' 0 3 ++ b0 : BitVec 11)
  if b2 ≠ 0#8 ∨ b1.extractLsb' 4 4 ≠ 0#4 then .error .bitsBeyondTheFormat
  else if frameBit f 0 ≠ 0#1 then .error .startBitNotZero
  else if frameBit f 10 ≠ 1#1 then .error .stopBitNotOne
  else if frameBit f 9 ≠ parityOf (unframe f) then .error .exchangeParityWrong
  else .ok (.exchange12 (bitAt b1 3) (unframe f))

/-- The decoder: total, and refusing by name. -/
def decode (w : OpWord) : Except DecodeError Instr :=
  match w.fmt with
  | .k8 => decodeKey w.b0 w.b1 w.b2
  | .f11 => decodeFrame w.b0 w.b1 w.b2
  | .f12 => decodeExchange w.b0 w.b1 w.b2

/-! ## Encoding -/

/-- A K8 word. -/
def k8Word (key b1 b2 : Byte) : OpWord := ⟨.k8, key, b1, b2⟩

/-- A wire word from its frame and the bit above it. -/
def wireWord (fmt : Format) (top : Bit) (f : Frame) : OpWord :=
  ⟨fmt, f.extractLsb' 0 8, ((0#4 ++ top) ++ f.extractLsb' 8 3 : BitVec 8), 0#8⟩

/-- The word of an operation. -/
def encode : Instr → OpWord
  | .rxStart d k => k8Word (keyOf 0#3 0#1 0) (edgeByte 0#1 d k) 0#8
  | .rxData p d => k8Word (keyOf 0#3 0#1 p) (edgeByte 0#1 d .none) 0#8
  | .rxParity d k => k8Word (keyOf 0#3 0#1 9) (edgeByte 0#1 d k) 0#8
  | .rxStop d k => k8Word (keyOf 0#3 0#1 10) (edgeByte 0#1 d k) 0#8
  | .illegal m p => k8Word (keyOf 0#3 m.bit p) 0#8 0#8
  | .txIgnore => k8Word (keyOf 0#3 1#1 0) 0#8 0#8
  | .txBit p => k8Word (keyOf 0#3 1#1 p) 0#8 0#8
  | .txStop => k8Word (keyOf 0#3 1#1 10) 0#8 0#8
  | .txAck d => k8Word (keyOf 0#3 1#1 11) (edgeByte 0#1 d .none) 0#8
  | .txStart b k => k8Word (subKey 1#3 0#5) b (0#6 ++ k.code : BitVec 8)
  | .txCollect => k8Word (subKey 2#3 0#5) 0#8 0#8
  | .txGiveup => k8Word (subKey 3#3 0#5) 0#8 0#8
  | .reset => k8Word (subKey 4#3 0#5) 0#8 0#8
  | .configure none => k8Word (subKey 5#3 0#5) 0#8 0#8
  | .configure (some f) => k8Word (subKey 5#3 0#5) 1#8 f
  | .read => k8Word (subKey 5#3 1#5) 0#8 0#8
  | .enableCb => k8Word (subKey 5#3 2#5) 0#8 0#8
  | .disableCb => k8Word (subKey 5#3 3#5) 0#8 0#8
  | .parity b => k8Word (subKey 7#3 0#5) b 0#8
  | .chkpar b r => k8Word (subKey 7#3 1#5) b (0#7 ++ r : BitVec 8)
  | .mkframe b => k8Word (subKey 7#3 2#5) b 0#8
  | .frame11 p b => wireWord .f11 0#1 (frameOf p b)
  | .exchange12 a b => wireWord .f12 a (mkFrame b)

/-! ## The opcode table's words -/

/-- The format of a table row by its number of bits: 8 is K8, 11 is F11, 12 is F12. In whole bytes both wire formats
have 16 bits; there a set bit 11 can only be an exchange's acknowledgment level (assumption log 20). -/
def formatOfBits (nbits w : Nat) : Format :=
  if nbits ≤ 8 then .k8
  else if nbits = 11 then .f11
  else if nbits = 12 then .f12
  else if nbits = 16 then (if w.testBit 11 then .f12 else .f11)
  else .k8

/-- The word of a number, least significant byte first. -/
def wordOfNat (fmt : Format) (w : Nat) : OpWord :=
  ⟨fmt, BitVec.ofNat 8 w, BitVec.ofNat 8 (w / 256), BitVec.ofNat 8 (w / 65536)⟩

/-- The operation the decoder reads from a row's word: the operand bytes beyond `nbits` are zeros. -/
def decodeTableWord (nbits w : Nat) : Option Instr :=
  match decode (wordOfNat (formatOfBits nbits w) (w % 2 ^ nbits)) with
  | .ok i => some i
  | .error _ => none

end Sys2Proof
end

