-- ==== Sys2Proof/Machine/State.lean ====
section
/-!
DEFINITION. The state of the machine as plain data: the block's nine fields (spec/10_state.md R20), the environment's
three at the boundary (R33 to R35), and four fields of the model's own (parameters, pending events, output trace, counter
of free values). The reset values are those of R42.
-/

namespace Sys2Proof.Machine

/-- The values of R195 that an operation returns to its caller. -/
inductive Status where
  | ok
  | eBusy
  | eConfig
  | eAck
  | eTimeoutWrite
  | eTimeoutRead
  | eInval
deriving DecidableEq, Repr

/-- The error conditions the block detects itself and tells no caller (R185 to R188). -/
inductive ErrorCond where
  | frameStart
  | parity
  | frameStop
deriving DecidableEq, Repr

/-- The line primitives of R13 as the environment sees them. -/
inductive LineAction where
  | clkLow
  | hold (us : Nat)
  | dataSet (b : Bit)
  | dataRelease
  | clkRelease
deriving DecidableEq, Repr

/-- Where a delivered byte goes (R171). -/
inductive Sink where
  | callback (f : CallbackRef)
  | inbox
deriving DecidableEq, Repr

/-- What an operation gives the world outside the block (assumption log 2). -/
inductive Output where
  /-- A line action. -/
  | line (a : LineAction)
  /-- `raise E` (R13). -/
  | raised (e : ErrorCond)
  /-- `Deliver` (R171). -/
  | delivered (sink : Sink) (b : Byte)
  /-- `return s` to a host caller. -/
  | status (s : Status)
  /-- The byte `READ` returns (R176). -/
  | byteRead (b : Byte)
  /-- A caller that meets a taken gate goes on waiting (R168). -/
  | waiting
  /-- The result of PARITY (R111). -/
  | bitResult (r : Bit)
  /-- The result of CHKPAR (R113). -/
  | boolResult (r : Bool)
  /-- The result of MKFRAME (R114). -/
  | frameResult (f : Frame)
deriving DecidableEq, Repr

/-- The state. -/
structure State where
  /-- `mode` (R21). -/
  mode : Mode
  /-- `rx.pos`, a counter of `POS_WIDTH` bits (R22, R24; assumption log 3). -/
  rxPos : Nat
  /-- `rx.acc` (R26). -/
  rxAcc : Byte
  /-- `tx.frame` (R27). -/
  txFrame : Frame
  /-- `tx.pos`, a counter of `POS_WIDTH` bits (R23, R24; assumption log 3). -/
  txPos : Nat
  /-- `tx.outcome` (R30). -/
  txOutcome : TxOutcome
  /-- `gate` (R29). -/
  gate : Gate
  /-- `clk_drv` (R31). -/
  clkDrv : ClkDrv
  /-- `data_drv` (R31). -/
  dataDrv : DataDrv
  /-- ENV: the registered callback function, the "optional function reference" of CallbackSink (R33, R175). -/
  callback : Option CallbackRef
  /-- ENV `cb_enabled` (R34). -/
  cbEnabled : Bool
  /-- ENV `inbox`, oldest byte first (R35). -/
  inbox : List Byte
  /-- The parameters of R9, which no step writes. The model's own field (assumption log 4). -/
  cfg : Config
  /-- The events issued and not yet handled, oldest first. The model's own field (assumption log 1). -/
  events : List Event
  /-- What the operations gave the world, oldest first. The model's own field (assumption log 2). -/
  trace : List Output
  /-- How many free values have been drawn. The model's own field (assumption log 8). -/
  draws : Nat
deriving DecidableEq, Repr

/-- ENV `cb_set` (R33): a callback function has been registered. -/
def State.cbSet (s : State) : Bool := s.callback.isSome

/-- Why a step faults. -/
inductive Fault where
  /-- Raised by ILLEGAL, and by RX.DATA or TX.BIT given a position their rule does not admit: an edge at a position
  outside the document's ranges (R92, U1). Safe: the model stops and no claim holds of such a run. -/
  | illegalPosition (m : Mode) (p : Nat)
deriving DecidableEq, Repr

/-- Why a step is refused. -/
inductive Refusal where
  /-- An instruction that has no meaning yet. Safe. -/
  | notModelled (mnemonic : String)
  /-- Raised by TX.COLLECT when the gate is available and no write has ended (R168, U2: "no source gives this a
  meaning"). Safe: the model stops. -/
  | collectWithoutOutcome (o : TxOutcome)
  /-- Raised by a delivery to an inbox of finite capacity that is full (R173, U7). Safe: the model stops. -/
  | inboxFull
deriving DecidableEq, Repr

/-- The machine right after reset (R42). `txFrame` is a value the model names (assumption log 5); the last four fields
are the model's own. -/
def State.reset : State where
  mode := .read
  rxPos := 0
  rxAcc := 0x00#8
  txFrame := 0x000#11
  txPos := 0
  txOutcome := .inactive
  gate := .available
  clkDrv := .released
  dataDrv := .released
  callback := none
  cbEnabled := false
  inbox := []
  cfg := Config.default
  events := []
  trace := []
  draws := 0

end Sys2Proof.Machine
end

