-- ==== Sys2Proof/Machine/Flags.lean ====
section
/-!
DEFINITION. The flag computations: the gate's primitives (spec/20_memory.md R65), the outcome an acknowledgment level
leaves (R148), the status a collection returns (R168), and the numbers of the error conditions (R195).
-/

namespace Sys2Proof.Machine

/-- The transition of `TryAcquire()` and of `Acquire()` when they succeed (R65). -/
def State.takeGate (s : State) : State := { s with gate := .taken }

/-- `Release()`: capacity 1, so an available gate stays available (R65, U15). -/
def State.releaseGate (s : State) : State := { s with gate := .available }

/-- `TryAcquire()`: test and set in one step; `none` is failure, with no change (R65). -/
def tryAcquire (s : State) : Option State :=
  match s.gate with
  | .taken => none
  | .available => some s.takeGate

/-- The outcome an acknowledgment level stands for: 0 is acknowledged (R148). -/
def ackOutcome (d : Bit) : TxOutcome := if d = 0#1 then .success else .failure

/-- The status a collection returns for an outcome, where the document gives it one (R168). -/
def collectStatus (o : TxOutcome) : Option Status :=
  match o with
  | .success => some .ok
  | .failure => some .eAck
  | .inactive => none
  | .active => none

/-- The number of a status (R195). -/
def Status.code : Status → Nat
  | .ok => 0
  | .eBusy => 4
  | .eConfig => 5
  | .eAck => 6
  | .eTimeoutWrite => 7
  | .eTimeoutRead => 8
  | .eInval => 9

/-- The number of an error condition (R195). -/
def ErrorCond.code : ErrorCond → Nat
  | .frameStart => 1
  | .parity => 2
  | .frameStop => 3

end Sys2Proof.Machine
end

