-- ==== Sys2Proof/Machine/Operands.lean ====
section
/-!
DEFINITION. The operand forms: the level an edge samples on DATA (spec/20_memory.md R51, R54), whether the edge interrupt
is armed (R197), the live position (R25), the failing step of an initiation (R142), the word of an event at a state
(R89), and the operation an event selects (R88, R160).
-/

namespace Sys2Proof.Machine

/-- The level on DATA when the peripheral drives it to `d`: low wins (R54, G1; assumption log 16). -/
def sampleData (s : State) (d : Bit) : Bit :=
  match s.dataDrv with
  | .low => 0#1
  | .high => d
  | .released => d

/-- The CLOCK interrupt is armed while CLOCK is an input (R31, R197). -/
def edgeArmed (s : State) : Bool := s.clkDrv = .released

/-- The position the next edge reads (R25). -/
def livePos (s : State) : Nat :=
  match s.mode with
  | .read => s.rxPos
  | .write => s.txPos

/-- The step of an initiation that fails: none unless `LINE_CFG_CAN_FAIL` (R142). -/
def effectiveFault (s : State) (k : LineFault) : LineFault := if s.cfg.lineCfgCanFail then k else .none

/-- The edge operation the state selects (R88). -/
def selectEdge (s : State) : EdgeOp := edgeOpOf s.mode (livePos s)

/-- The operation an event selects at a state; `none` for an edge while the interrupt is not armed, which is no event of
the block (R55, R197; assumption log 15). `c` is carried and not used (R160). -/
def selectOp (s : State) (e : Event) : Option Instr :=
  match e with
  | .edge _ d k => if edgeArmed s then some ((selectEdge s).toInstr (sampleData s d) k) else none
  | .start b k => some (.txStart b k)
  | .collect => some .txCollect
  | .giveup => some .txGiveup
  | .reset => some .reset
  | .configure f => some (.configure f)
  | .read => some .read
  | .enableCb => some .enableCb
  | .disableCb => some .disableCb
  | .parity b => some (.parity b)
  | .chkpar b r => some (.chkpar b r)
  | .mkframe b => some (.mkframe b)
  | .frame11 p b => some (.frame11 p b)
  | .exchange12 a b => some (.exchange12 a b)

/-- The word of an event at a state: the key `{ev, m, pos}` of R89 with the operands, or the wire word. -/
def eventWord (s : State) (e : Event) : OpWord :=
  match e with
  | .edge c d k => k8Word (keyOf 0#3 s.mode.bit (livePos s)) (edgeByte c (sampleData s d) k) 0#8
  | .start b k => encode (.txStart b k)
  | .collect => encode .txCollect
  | .giveup => encode .txGiveup
  | .reset => encode .reset
  | .configure f => encode (.configure f)
  | .read => encode .read
  | .enableCb => encode .enableCb
  | .disableCb => encode .disableCb
  | .parity b => encode (.parity b)
  | .chkpar b r => encode (.chkpar b r)
  | .mkframe b => encode (.mkframe b)
  | .frame11 p b => encode (.frame11 p b)
  | .exchange12 a b => encode (.exchange12 a b)

end Sys2Proof.Machine
end

