-- ==== Sys2Proof/Machine/Ops.lean ====
section
/-!
DEFINITION. The named operations over the state that the meanings share: output, line primitives (spec/00_scope.md R13),
delivery (R171), initiation (R141 to R143), taking the block's one trap, abort-read (R131, R201), and the return from it,
the end of a write (R148, R203).
-/

namespace Sys2Proof.Machine

/-- The outcome of a step of this machine. -/
abbrev Result := Host.Outcome State Fault Refusal

/-- One operation after another, stopping at the first fault or refusal. -/
def andThen (r : Result) (f : State → Result) : Result :=
  match r with
  | .next s => f s
  | .fault e => .fault e
  | .refused e => .refused e

/-- Give something to the world outside. -/
def State.emit (s : State) (o : Output) : State := { s with trace := s.trace ++ [o] }

/-- The oldest event has been taken. -/
def State.popEvent (s : State) : State := { s with events := s.events.tail }

/-- A free value has been drawn. -/
def State.drew (s : State) : State := { s with draws := s.draws + 1 }

/-! ## Line primitives (R13, R52) -/

/-- `ClkLow()`. -/
def clkLow (s : State) : State := State.emit { s with clkDrv := .low } (.line .clkLow)

/-- `Hold(T_INHIBIT)`: a trace event with no effect on state (R245). -/
def hold (s : State) : State := s.emit (.line (.hold s.cfg.tInhibitUs))

/-- The drive that puts a bit on DATA (R13). -/
def driveOf (b : Bit) : DataDrv := if b = 0#1 then .low else .high

/-- `DataSet(b)`. -/
def dataSet (b : Bit) (s : State) : State := State.emit { s with dataDrv := driveOf b } (.line (.dataSet b))

/-- `DataRelease()`. -/
def dataRelease (s : State) : State := State.emit { s with dataDrv := .released } (.line .dataRelease)

/-- `ClkRelease()`. -/
def clkRelease (s : State) : State := State.emit { s with clkDrv := .released } (.line .clkRelease)

/-! ## Receive state and delivery -/

/-- Position 0 and accumulator 0 (R22, R26). -/
def clearRx (s : State) : State := { s with rxPos := 0, rxAcc := 0x00#8 }

/-- The inbox can take no more bytes (R173). -/
def inboxIsFull (s : State) : Bool :=
  match s.cfg.inboxCapacity with
  | none => false
  | some n => n ≤ s.inbox.length

/-- The inbox half of `Deliver` (R171): an append, refused where a finite inbox is full (U7). -/
def appendInbox (b : Byte) (s : State) : Result :=
  if inboxIsFull s then .refused .inboxFull
  else .next (State.emit { s with inbox := s.inbox ++ [b] } (.delivered .inbox b))

/-- `Deliver(b)`: to the callback if one is set and enabled, else to the inbox (R171). -/
def deliver (b : Byte) (s : State) : Result :=
  match s.cbEnabled, s.callback with
  | true, some f => .next (s.emit (.delivered (.callback f) b))
  | true, none => appendInbox b s
  | false, _ => appendInbox b s

/-! ## Initiation (R141, R142, R143) -/

/-- Steps 2 and 3: the frame built, WRITE mode, position 0, outcome ACTIVE. -/
def loadWrite (b : Byte) (s : State) : State :=
  { s with txFrame := mkFrame b, mode := .write, txPos := 0, txOutcome := .active }

/-- Step 4: CLOCK low, held. -/
def inhibit (s : State) : State := hold (clkLow s)

/-- Steps 5 and 6: the start bit on DATA; position 1, and any read in progress discarded. -/
def startBitStep (s : State) : State := dataSet 0#1 s

/-- Step 6. -/
def advanceToFirstBit (s : State) : State := clearRx { s with txPos := s.cfg.storePos 1 }

/-- The state after a failed line action: the baseline with the gate still taken, and the two drives free values
(R142, U4; assumption log 7). -/
def failInitiation (s : State) : State :=
  State.drew
    { s with
      mode := .read
      txPos := 0
      txOutcome := .inactive
      clkDrv := Config.freeClkDrv s.draws
      dataDrv := Config.freeDataDrv s.draws }

/-- Steps 2 to 7 with the failing step `k`, the gate already taken. -/
def runInitiation (b : Byte) (k : LineFault) (s : State) : State × Status :=
  match k with
  | .none => (clkRelease (advanceToFirstBit (startBitStep (inhibit (loadWrite b s)))), .ok)
  | .step4 => (failInitiation (loadWrite b s), .eConfig)
  | .step5 => (failInitiation (inhibit (loadWrite b s)), .eConfig)
  | .step7 => (failInitiation (advanceToFirstBit (startBitStep (inhibit (loadWrite b s)))), .eConfig)

/-- `Initiate(b)`: one atomic operation (R141; assumption log 10). -/
def initiate (b : Byte) (k : LineFault) (s : State) : State × Status :=
  match tryAcquire s with
  | none => (s, .eBusy)
  | some s => runInitiation b (effectiveFault s k) s

/-! ## The trap and the return from it -/

/-- `AbortRead(E)`: raise, clear the receive state, initiate the resend; its status is discarded (R131, R201, D10). -/
def abortRead (e : ErrorCond) (k : LineFault) (s : State) : State :=
  (initiate resendByte k (clearRx (s.emit (.raised e)))).1

/-- The end of a write, a resend's as well as a host's: outcome, READ mode, position 0, then the gate released
(R148, R203, R64 (c)). -/
def finishWrite (d : Bit) (s : State) : State :=
  State.releaseGate { s with txOutcome := ackOutcome d, mode := .read, txPos := 0 }

end Sys2Proof.Machine
end

