-- ==== Sys2Proof/Machine/Facade.lean ====
section
/-!
DEFINITION. The facade requests of the environment: CONFIGURE, READ, ENABLE_CB, DISABLE_CB
(spec/43_dispatch_and_host.md R175 to R178). They touch no field of the block.
-/

namespace Sys2Proof.Machine

/-- CONFIGURE (R175): a null callback is an invalid argument; `cb_enabled` is not changed (D19). -/
def execConfigure (f : Option CallbackRef) (s : State) : Result :=
  match f with
  | none => .next (s.emit (.status .eInval))
  | some g => .next (State.emit { s with callback := some g } (.status .ok))

/-- READ (R176): the oldest byte, or the time-out of a wait on an empty inbox (assumption log 18). -/
def execRead (s : State) : Result :=
  match s.inbox with
  | [] => .next (s.emit (.status .eTimeoutRead))
  | b :: rest => .next (State.emit { s with inbox := rest } (.byteRead b))

/-- The enabled flag set to `v`, the inbox flushed only when that changes the flag (R177). -/
def setCbEnabled (v : Bool) (s : State) : State := if s.cbEnabled = v then s else { s with cbEnabled := v, inbox := [] }

/-- ENABLE_CB (R177). -/
def execEnableCb (s : State) : Result := .next ((setCbEnabled true s).emit (.status .ok))

/-- DISABLE_CB (R177). -/
def execDisableCb (s : State) : Result := .next ((setCbEnabled false s).emit (.status .ok))

end Sys2Proof.Machine
end

