-- ==== Sys2Proof/Machine/Pure.lean ====
section
/-!
DEFINITION. The pure functions as operations: PARITY, CHKPAR, MKFRAME (spec/40_codec.md R111, R113, R114). They write no
field of the block; the result goes to the trace (assumption log 23).
-/

namespace Sys2Proof.Machine

/-- PARITY (R111). -/
def execParity (b : Byte) (s : State) : Result := .next (s.emit (.bitResult (parityOf b)))

/-- CHKPAR (R113). -/
def execChkpar (b : Byte) (r : Bit) (s : State) : Result := .next (s.emit (.boolResult (chkParity b r)))

/-- MKFRAME (R114). -/
def execMkframe (b : Byte) (s : State) : Result := .next (s.emit (.frameResult (mkFrame b)))

end Sys2Proof.Machine
end

