-- ==== Sys2Proof/Machine/HostOps.lean ====
section
/-!
DEFINITION. The host's side of a write, the reset and the illegal selection: TX.COLLECT, TX.GIVEUP
(spec/43_dispatch_and_host.md R168, R170), RESET (spec/70_reset_and_hazards.md R220), ILLEGAL (spec/30_encoding.md R92).
-/

namespace Sys2Proof.Machine

/-- TX.COLLECT (R168): not enabled while the gate is taken, and then the caller waits (assumption log 12); otherwise
acquire, read the outcome, reset it, release. An outcome the document gives no result is refused (U2). It runs whether or not
a TX.START that returned `OK` came before, so that it may return a resend's or a given-up write's outcome (R168 (b), R234);
U18 has no such move, and that the model has it is the model's choice (assumption log 34). -/
def execTxCollect (s : State) : Result :=
  match tryAcquire s with
  | none => .next (s.emit .waiting)
  | some s1 =>
    match collectStatus s1.txOutcome with
    | none => .refused (.collectWithoutOutcome s1.txOutcome)
    | some st => .next (State.emit (State.releaseGate { s1 with txOutcome := .inactive }) (.status st))

/-- TX.GIVEUP (R170): the gate by `GIVEUP_POLICY`; the exchange goes on (assumption log 13). -/
def execTxGiveup (s : State) : Result :=
  match s.cfg.giveupPolicy with
  | .keep => .next (s.emit (.status .eTimeoutWrite))
  | .release => .next (s.releaseGate.emit (.status .eTimeoutWrite))

/-- RESET (R220). `tx.frame` is unspecified afterwards: a free value (U6; assumption log 6). The model's own fields are
kept (assumption log 31). -/
def execReset (s : State) : Result :=
  .next (State.drew
    { s with
      mode := .read
      rxPos := 0
      rxAcc := 0x00#8
      txPos := 0
      txOutcome := .inactive
      gate := .available
      clkDrv := .released
      dataDrv := .released
      txFrame := Config.freeFrame s.draws
      callback := none
      cbEnabled := false
      inbox := [] })

/-- ILLEGAL (R92): a fault. -/
def execIllegal (m : Mode) (p : Nat) (_s : State) : Result := .fault (.illegalPosition m p)

end Sys2Proof.Machine
end

