-- ==== Sys2Proof/Machine/Receive.lean ====
section
/-!
DEFINITION. The receive machine: RX.START, RX.DATA, RX.PARITY, RX.STOP (spec/41_receive.md). `d` is the level sampled for
the edge, `k` the failing step of the `Initiate` that an abort runs.
-/

namespace Sys2Proof.Machine

/-- RX.START (R126). -/
def execRxStart (d : Bit) (k : LineFault) (s : State) : Result :=
  if d = 0#1 then .next { s with rxPos := s.cfg.storePos 1 } else .next (abortRead .frameStart k s)

/-- RX.DATA (R127): the bit is stored at its index and the position advances. A position the rule does not admit is the
fault of R92. -/
def execRxData (p : Nat) (d : Bit) (s : State) : Result :=
  if isDataPos p then .next { s with rxAcc := setBit s.rxAcc (p - 1) d, rxPos := s.cfg.storePos (p + 1) }
  else .fault (.illegalPosition .read p)

/-- RX.PARITY (R128). -/
def execRxParity (d : Bit) (k : LineFault) (s : State) : Result :=
  if chkParity s.rxAcc d then .next { s with rxPos := s.cfg.storePos 10 } else .next (abortRead .parity k s)

/-- RX.STOP (R129): the byte is delivered, then the receive state cleared. -/
def execRxStop (d : Bit) (k : LineFault) (s : State) : Result :=
  if d = 1#1 then andThen (deliver s.rxAcc s) (fun s => .next (clearRx s)) else .next (abortRead .frameStop k s)

end Sys2Proof.Machine
end

