-- ==== Sys2Proof/Machine/Transmit.lean ====
section
/-!
DEFINITION. The transmit machine: TX.START, TX.IGNORE, TX.BIT, TX.STOP, TX.ACK (spec/42_transmit.md).
-/

namespace Sys2Proof.Machine

/-- TX.START (R141, R142): `Initiate(b)`, and its status to the caller. -/
def execTxStart (b : Byte) (k : LineFault) (s : State) : Result :=
  let r := initiate b k s
  .next (r.1.emit (.status r.2))

/-- TX.IGNORE: the defensive no-op (R144, R91, U23). -/
def execTxIgnore (s : State) : Result := .next s

/-- The send-bit step at position `p` (R147). -/
def sendBit (p : Nat) (s : State) : State := dataSet (frameBit s.txFrame p) s

/-- TX.BIT (R145). A position the rule does not admit is the fault of R92. -/
def execTxBit (p : Nat) (s : State) : Result :=
  if isSendBitPos p then .next { sendBit p s with txPos := s.cfg.storePos (p + 1) } else .fault (.illegalPosition .write p)

/-- TX.STOP (R146): the stop bit, then DATA back to input. -/
def execTxStop (s : State) : Result := .next { dataRelease (sendBit 10 s) with txPos := s.cfg.storePos 11 }

/-- TX.ACK (R148). -/
def execTxAck (d : Bit) (s : State) : Result := .next (finishWrite d s)

end Sys2Proof.Machine
end

