-- ==== Sys2Proof/Machine/Wire.lean ====
section
/-!
DEFINITION. The edge dispatcher (spec/43_dispatch_and_host.md R160), runs of edges, and the two wire formats as
operations: FRAME11 is the pseudo-operation RXFRAME, eleven edges with the frame's levels; EXCHANGE12 is a TX.START and
the eleven edges of TXCLOCK (spec/30_encoding.md R80, R82, R83, R96; assumption log 21 and 22).
-/

namespace Sys2Proof.Machine

/-- The edge operation with its inputs, run. -/
def runEdgeOp (o : EdgeOp) (d : Bit) (k : LineFault) (s : State) : Result :=
  match o with
  | .rxStart => execRxStart d k s
  | .rxData p => execRxData p d s
  | .rxParity => execRxParity d k s
  | .rxStop => execRxStop d k s
  | .txIgnore => execTxIgnore s
  | .txBit p => execTxBit p s
  | .txStop => execTxStop s
  | .txAck => execTxAck d s
  | .illegal m p => execIllegal m p s

/-- `EDGE(c, d)` (R160): mode and position are read once, and one operation runs. An edge while the interrupt is not armed
does nothing (R197). -/
def edge (d : Bit) (k : LineFault) (s : State) : Result :=
  if edgeArmed s then runEdgeOp (selectEdge s) (sampleData s d) k s else .next s

/-- `RXBITS` (R96 (a)): one edge for each level, left to right, no line action failing. -/
def edges : List Bit → State → Result
  | [], s => .next s
  | d :: ds, s => andThen (edge d .none s) (edges ds)

/-- The levels of `TXCLOCK a` (R96 (c)): ten that no rule reads, then the acknowledgment. -/
def txClockBits (a : Bit) : List Bit := List.replicate 10 1#1 ++ [a]

/-- FRAME11 (R83, R96 (b)). -/
def execFrame11 (p : Bit) (b : Byte) (s : State) : Result := edges (wireBits (frameOf p b)) s

/-- EXCHANGE12 (R82): if the start does not return `OK`, its status is the result and no edge follows. -/
def execExchange12 (a : Bit) (b : Byte) (s : State) : Result :=
  match initiate b .none s with
  | (t, .ok) => edges (txClockBits a) (t.emit (.status .ok))
  | (t, st) => .next (t.emit (.status st))

end Sys2Proof.Machine
end

