-- ==== Sys2Proof/Machine/Dispatch.lean ====
section
/-!
DEFINITION. One arm per operation: each calls its meaning.
-/

namespace Sys2Proof.Machine

def exec (i : Instr) (s : State) : Host.Outcome State Fault Refusal :=
  match i with
  | .rxStart d k => Sys2Proof.Machine.execRxStart d k s
  | .rxData p d => Sys2Proof.Machine.execRxData p d s
  | .rxParity d k => Sys2Proof.Machine.execRxParity d k s
  | .rxStop d k => Sys2Proof.Machine.execRxStop d k s
  | .illegal m p => Sys2Proof.Machine.execIllegal m p s
  | .txIgnore => Sys2Proof.Machine.execTxIgnore s
  | .txBit p => Sys2Proof.Machine.execTxBit p s
  | .txStop => Sys2Proof.Machine.execTxStop s
  | .txAck d => Sys2Proof.Machine.execTxAck d s
  | .txStart b k => Sys2Proof.Machine.execTxStart b k s
  | .txCollect => Sys2Proof.Machine.execTxCollect s
  | .txGiveup => Sys2Proof.Machine.execTxGiveup s
  | .reset => Sys2Proof.Machine.execReset s
  | .configure f => Sys2Proof.Machine.execConfigure f s
  | .read => Sys2Proof.Machine.execRead s
  | .enableCb => Sys2Proof.Machine.execEnableCb s
  | .disableCb => Sys2Proof.Machine.execDisableCb s
  | .parity b => Sys2Proof.Machine.execParity b s
  | .chkpar b r => Sys2Proof.Machine.execChkpar b r s
  | .mkframe b => Sys2Proof.Machine.execMkframe b s
  | .frame11 p b => Sys2Proof.Machine.execFrame11 p b s
  | .exchange12 a b => Sys2Proof.Machine.execExchange12 a b s

end Sys2Proof.Machine
end

