-- ==== Sys2Proof/Machine/Place.lean ====
section
/-!
DEFINITION. An operation placed as the machine's next one: the event that selects it at the head of the pending events,
and for an edge operation the mode, the position and the drives that the selection needs (assumption log 32).
-/

namespace Sys2Proof.Machine

/-- An event put before every pending one. -/
def State.pushEvent (s : State) (e : Event) : State := { s with events := e :: s.events }

/-- DATA released where the peripheral's 1 would not be seen on a line the host holds low (R54). -/
def exposeData (d : Bit) (s : State) : State :=
  match s.dataDrv with
  | .low => if d = 1#1 then { s with dataDrv := .released } else s
  | .high => s
  | .released => s

/-- READ mode at position `p`, the edge interrupt armed, and an edge with level `d` pending. -/
def placeRx (p : Nat) (d : Bit) (k : LineFault) (s : State) : State :=
  (exposeData d { s with mode := .read, rxPos := p, clkDrv := .released }).pushEvent (.edge 0#1 d k)

/-- WRITE mode at position `p`, the edge interrupt armed, and an edge with level `d` pending. -/
def placeTx (p : Nat) (d : Bit) (s : State) : State :=
  (exposeData d { s with mode := .write, txPos := p, clkDrv := .released }).pushEvent (.edge 0#1 d .none)

/-- The state whose next step runs the operation. -/
def placeInstr (i : Instr) (s : State) : State :=
  match i with
  | .rxStart d k => placeRx 0 d k s
  | .rxData p d => placeRx p d .none s
  | .rxParity d k => placeRx 9 d k s
  | .rxStop d k => placeRx 10 d k s
  | .illegal .read p => placeRx p 0#1 .none s
  | .illegal .write p => placeTx p 0#1 s
  | .txIgnore => placeTx 0 0#1 s
  | .txBit p => placeTx p 0#1 s
  | .txStop => placeTx 10 0#1 s
  | .txAck d => placeTx 11 d s
  | .txStart b k => s.pushEvent (.start b k)
  | .txCollect => s.pushEvent .collect
  | .txGiveup => s.pushEvent .giveup
  | .reset => s.pushEvent .reset
  | .configure f => s.pushEvent (.configure f)
  | .read => s.pushEvent .read
  | .enableCb => s.pushEvent .enableCb
  | .disableCb => s.pushEvent .disableCb
  | .parity b => s.pushEvent (.parity b)
  | .chkpar b r => s.pushEvent (.chkpar b r)
  | .mkframe b => s.pushEvent (.mkframe b)
  | .frame11 p b => s.pushEvent (.frame11 p b)
  | .exchange12 a b => s.pushEvent (.exchange12 a b)

end Sys2Proof.Machine
end

