-- ==== Sys2Proof/Machine/Step.lean ====
section
/-!
DEFINITION. One step: the oldest pending event is taken and the operation it selects is run. With no event pending the
block waits (spec/43_dispatch_and_host.md R162, R180; assumption log 1).
-/

namespace Sys2Proof.Machine

/-- One step. -/
def step (s : State) : Host.Outcome State Fault Refusal :=
  match s.events with
  | [] => .next s
  | e :: _ =>
    match selectOp s e with
    | some i => exec i s.popEvent
    | none => .next s.popEvent

/-- The state with a table row's operation placed as the next one; unchanged where the decoder refuses the word. -/
def State.withFetchWord (s : State) (nbits w : Nat) : State :=
  match decodeTableWord nbits w with
  | some i => placeInstr i s
  | none => s

end Sys2Proof.Machine
end

