-- ==== Sys2Proof/Machine/Pseudo.lean ====
section
/-!
DEFINITION. The pseudo-operations of spec/30_encoding.md R96 as lists of events, a run of a list of events, and the
facade's blocking write (spec/43_dispatch_and_host.md R169; assumption log 33).
-/

namespace Sys2Proof.Machine

/-- The events `RXBITS s` (R96 (a)). -/
def rxBits (ds : List Bit) : List Event := ds.map (fun d => .edge 0#1 d .none)

/-- The events `RXFRAME b` (R96 (b)). -/
def rxFrame (b : Byte) : List Event := rxBits (wireBits (mkFrame b))

/-- The events `TXCLOCK a` (R96 (c)). -/
def txClock (a : Bit) : List Event := rxBits (txClockBits a)

/-- Events handled one after another, each in one step, before any event already pending. -/
def runEvents : List Event → State → Result
  | [], s => .next s
  | e :: es, s => andThen (step (s.pushEvent e)) (runEvents es)

/-- How a caller's wait for a write ends (R169). -/
inductive WaitEnd where
  | collect
  | giveup
deriving DecidableEq, Repr

/-- The caller's last move. -/
def endWait (e : WaitEnd) (s : State) : Result :=
  match e with
  | .collect => execTxCollect s
  | .giveup => execTxGiveup s

/-- `WRITE(b)`: the start; if it returns `OK`, whatever the other agents do during the wait, then the collection or the
give-up (R169; assumption log 33). A RESET among what they do is no fault and no refusal here: R220 leaves a wait that spans a reset outside
every claim and U17 refuses it, and that the procedure runs on is the model's choice (assumption log 35). -/
def writeBlocking (b : Byte) (k : LineFault) (during : List Event) (e : WaitEnd) (s : State) : Result :=
  match initiate b k s with
  | (t, .ok) => andThen (runEvents during (t.emit (.status .ok))) (endWait e)
  | (t, st) => .next (t.emit (.status st))

end Sys2Proof.Machine
end

