-- ==== Sys2Proof/Safety.lean ====
section
/-!
DEFINITION. What counts as a good state: the invariants of spec/10_state.md R40 and R41, the quiescent state of
spec/43_dispatch_and_host.md R180, and the parts of the state that frames speak of.
-/

namespace Sys2Proof.Machine

/-- The parameters that R40 assumes: the defaults of `LINE_CFG_CAN_FAIL` and `GIVEUP_POLICY`. -/
def State.DefaultParams (s : State) : Prop := s.cfg.lineCfgCanFail = false ∧ s.cfg.giveupPolicy = .keep

/-- The start and stop bits of the frame register (R27, R40 (I8)). -/
def State.FrameBits (s : State) : Prop := frameBit s.txFrame 0 = 0#1 ∧ frameBit s.txFrame 10 = 1#1

/-- The invariants (I1) to (I7) of R40, and (I8) for every state in which the last write shows: in flight, or ended and
not collected. -/
structure State.Inv (s : State) : Prop where
  /-- (I1), first equivalence. -/
  write_iff_active : s.mode = .write ↔ s.txOutcome = .active
  /-- (I1), second equivalence. -/
  write_iff_pos : s.mode = .write ↔ 1 ≤ s.txPos ∧ s.txPos ≤ 11
  /-- (I1), third equivalence. -/
  write_iff_taken : s.mode = .write ↔ s.gate = .taken
  /-- (I2). -/
  read_txPos : s.mode = .read → s.txPos = 0
  /-- (I3). -/
  write_rx : s.mode = .write → s.rxPos = 0 ∧ s.rxAcc = 0#8
  /-- (I4). -/
  rxPos_le : s.rxPos ≤ 10
  /-- (I4). -/
  txPos_le : s.txPos ≤ 11
  /-- (I5), between frames. -/
  acc_start : s.rxPos = 0 → s.rxAcc = 0#8
  /-- (I5): the data bits not yet received are 0. -/
  acc_high : 1 ≤ s.rxPos → s.rxPos ≤ 8 → ∀ i, s.rxPos - 1 ≤ i → s.rxAcc.getLsbD i = false
  /-- (I6). -/
  data_driven : s.dataDrv ≠ .released ↔ s.mode = .write ∧ 1 ≤ s.txPos ∧ s.txPos ≤ 10
  /-- (I7). -/
  clk_released : s.clkDrv = .released
  /-- (I8). -/
  frame_bits : s.txOutcome ≠ .inactive → s.FrameBits

/-- The positions stay in the document's ranges, whatever the parameters (R22, R23, R24). -/
def State.PosInRange (s : State) : Prop := s.rxPos ≤ 10 ∧ s.txPos ≤ 11

/-- The counters hold what `POS_WIDTH` bits hold (R24). -/
def State.PosInWidth (s : State) : Prop := s.rxPos < 2 ^ s.cfg.posWidth ∧ s.txPos < 2 ^ s.cfg.posWidth

/-- What is left of (I1) when a line configuration can fail (R41). -/
def State.WriteHoldsGate (s : State) : Prop := s.mode = .write → s.gate = .taken

/-- Quiescent (R180). -/
def State.Quiescent (s : State) : Prop := s.mode = .read ∧ s.rxPos = 0 ∧ s.gate = .available

/-! ## Parts of the state -/

/-- The receive registers are the same. -/
def SameRx (s t : State) : Prop := t.rxPos = s.rxPos ∧ t.rxAcc = s.rxAcc

/-- The transmit registers are the same. -/
def SameTx (s t : State) : Prop := t.txFrame = s.txFrame ∧ t.txPos = s.txPos ∧ t.txOutcome = s.txOutcome

/-- Mode and gate are the same. -/
def SameControl (s t : State) : Prop := t.mode = s.mode ∧ t.gate = s.gate

/-- The drives of both lines are the same. -/
def SameLines (s t : State) : Prop := t.clkDrv = s.clkDrv ∧ t.dataDrv = s.dataDrv

/-- The environment's fields are the same. -/
def SameEnv (s t : State) : Prop := t.callback = s.callback ∧ t.cbEnabled = s.cbEnabled ∧ t.inbox = s.inbox

/-- The parameters and the pending events are the same. -/
def SameModel (s t : State) : Prop := t.cfg = s.cfg ∧ t.events = s.events

/-- The nine fields of the block (R20) are the same. -/
def SameBlock (s t : State) : Prop := SameControl s t ∧ SameRx s t ∧ SameTx s t ∧ SameLines s t

/-! ## What the rules name -/

/-- The line actions of an initiation, in order (R143). -/
def initiationActions (s : State) : List Output :=
  [.line .clkLow, .line (.hold s.cfg.tInhibitUs), .line (.dataSet 0#1), .line .clkRelease]

/-- The fields an initiation writes when it returns `OK` (R141). -/
def writeStarted (b : Byte) (s : State) : State :=
  { s with
    gate := .taken
    txFrame := mkFrame b
    mode := .write
    txPos := 1
    txOutcome := .active
    rxPos := 0
    rxAcc := 0#8
    clkDrv := .released
    dataDrv := .low }

/-- The state after a byte has been delivered (R171). -/
def delivered (b : Byte) (s : State) : State :=
  match s.cbEnabled, s.callback with
  | true, some f => { s with trace := s.trace ++ [.delivered (.callback f) b] }
  | _, _ => { s with inbox := s.inbox ++ [b], trace := s.trace ++ [.delivered .inbox b] }

/-- A delivery can be made: a callback takes the byte, or the inbox has room (R171, R173). -/
def State.CanDeliver (s : State) : Prop :=
  (s.cbEnabled = true ∧ s.cbSet = true) ∨ ∀ n, s.cfg.inboxCapacity = some n → s.inbox.length < n

/-- Ready for a frame: READ mode between frames, the edge interrupt armed, DATA not held low (R132). -/
def State.AwaitsFrame (s : State) : Prop :=
  s.mode = .read ∧ s.rxPos = 0 ∧ s.rxAcc = 0#8 ∧ s.clkDrv = .released ∧ s.dataDrv ≠ .low

/-- The bits of a byte in time order (R56). -/
def dataBits (b : Byte) : List Bit := (List.range 8).map (bitAt b)

/-- The DATA actions of a whole exchange after its start bit: data, parity, stop, release (R150). -/
def exchangeActions (f : Frame) : List Output :=
  (List.range 9).map (fun i => .line (.dataSet (frameBit f (i + 1)))) ++ [.line (.dataSet 1#1), .line .dataRelease]

/-- One shift of the shift-register form: the new bit in at the top (R133). -/
def shiftIn (sh : Byte) (d : Bit) : Byte := (d ++ sh.extractLsb' 1 7 : BitVec 8)

/-- A reserved key (R93). -/
def reservedKey (key : Byte) : Prop :=
  (keyEv key = 5#3 ∧ 4 ≤ (keySub key).toNat) ∨ keyEv key = 6#3 ∨ (keyEv key = 7#3 ∧ 3 ≤ (keySub key).toNat)

end Sys2Proof.Machine
end

