-- ==== Sys2Proof/Certificates/Slice0/Obligations.lean ====
section
/-!
DEFINITION. The statements for the provers. Each says which rule of spec/ it formalises, or which sections it rests on.
-/

open Sys2Proof Sys2Proof.Machine

/-! ## Encoding -/

/-- Decode and encode agree, for every operation with every operand at every value (30_encoding.md sections 4 and 5). The
places of the operands after the key are the model's choice (assumption log 20). -/
def Obligations.EncodedOperationDecodesToItself : Prop :=
  ∀ i : Instr, i.wf = true → decode (encode i) = .ok i

/-- R93: the reserved keys, and no others, are refused; every other key gives a well-formed operation. -/
def Obligations.ReservedKeysSelectNothing : Prop :=
  ∀ key b1 b2 : Byte,
    (reservedKey key → decode ⟨.k8, key, b1, b2⟩ = .error (.reservedKey key)) ∧
    (¬ reservedKey key → ∃ i, decode ⟨.k8, key, b1, b2⟩ = .ok i ∧ i.wf = true)

/-- Each word has one meaning (30_encoding.md sections 1 and 4): the word of a decoded operation has the same key, up to
the five bits that events 1 to 4 ignore, and a decoded wire word is encoded as itself. -/
def Obligations.DecodedWordHasOneMeaning : Prop :=
  ∀ (w : OpWord) (i : Instr), decode w = .ok i →
    (encode i).fmt = w.fmt ∧
    (w.fmt = .k8 → keyEv (encode i).b0 = keyEv w.b0) ∧
    (w.fmt = .k8 → (keyEv w.b0 = 0#3 ∨ keyEv w.b0 = 5#3 ∨ keyEv w.b0 = 7#3) → (encode i).b0 = w.b0) ∧
    (w.fmt ≠ .k8 → encode i = w)

/-- The wire formats (30_encoding.md section 1): a word of eleven bits is a FRAME11 exactly when its start bit is 0 and its
stop bit 1; one of twelve bits is an EXCHANGE12 exactly when its low eleven bits are a valid frame. That an eleven-bit word
decodes with either parity bit is read from the rules on receive (assumption log 21), that a twelve-bit word with another parity
bit than its byte's is refused is the model's choice (assumption log 22). -/
def Obligations.WireWordsOfTheTwoFormats : Prop :=
  (∀ f : Frame, decodeTableWord 11 f.toNat =
    if frameBit f 0 = 0#1 ∧ frameBit f 10 = 1#1 then some (.frame11 (frameBit f 9) (unframe f)) else none) ∧
  (∀ (a : Bit) (f : Frame), decodeTableWord 12 (2048 * a.toNat + f.toNat) =
    if f.valid then some (.exchange12 a (unframe f)) else none)

/-- Words written out from the opcode table decode to their operations (30_encoding.md section 4, opcode_table.json). A table
word has no operand bits: that the two operand bytes of a key stand there as zeros, which gives the level 0, the byte 0 and no
failing step, is the model's choice (assumption log 20). That the wire words are operations is the model's reading and choice (assumption logs 21 and 22). -/
def Obligations.TableWordsDecode : Prop :=
  decodeTableWord 8 0x00 = some (.rxStart 0#1 .none) ∧
  decodeTableWord 8 0x08 = some (.rxData 8 0#1) ∧
  decodeTableWord 8 0x0A = some (.rxStop 0#1 .none) ∧
  decodeTableWord 8 0x0B = some (.illegal .read 11) ∧
  decodeTableWord 8 0x19 = some (.txBit 9) ∧
  decodeTableWord 8 0x1B = some (.txAck 0#1) ∧
  decodeTableWord 8 0x3F = some (.txStart 0#8 .none) ∧
  decodeTableWord 8 0x40 = some .txCollect ∧
  decodeTableWord 8 0x9F = some .reset ∧
  decodeTableWord 8 0xA1 = some .read ∧
  decodeTableWord 8 0xE2 = some (.mkframe 0#8) ∧
  decodeTableWord 8 0xC0 = none ∧
  decodeTableWord 11 0x682 = some (.frame11 1#1 0x41#8) ∧
  decodeTableWord 12 0xEB4 = some (.exchange12 1#1 0x5A#8)

/-! ## The step -/

/-- A step takes the oldest event and runs the operation that the decoder reads from the event's word at the state: the key
`{ev, mode, live position}` with the event's operands (30_encoding.md section 4). An edge counts only while CLOCK is an
input (R55), and has a key where the position fits the key's four bits (R89); beyond them it faults. -/
def Obligations.StepRunsTheDecodedOperation : Prop :=
  ∀ (s : State) (e : Event) (es : List Event), s.events = e :: es →
    (∀ c d k, e = .edge c d k → s.clkDrv = .released) →
    ((∀ c d k, e = .edge c d k → livePos s ≤ 15) →
      ∃ i, decode (eventWord s e) = .ok i ∧ i.wf = true ∧ step s = exec i { s with events := es }) ∧
    (∀ c d k, e = .edge c d k → 16 ≤ livePos s → step s = .fault (.illegalPosition s.mode (livePos s)))

/-- With no event the block waits, and an edge while CLOCK is not an input is no event (43_dispatch_and_host.md section 1,
60_exceptions.md section 2). That a step with no event changes nothing is the model's choice (assumption log 1), that a
disarmed edge is dropped too (assumption log 15). -/
def Obligations.NoEventNoOperation : Prop :=
  ∀ s : State,
    (s.events = [] → step s = .next s) ∧
    (∀ c d k es, s.events = .edge c d k :: es → s.clkDrv = .low → step s = .next { s with events := es })

/-- The dispatch at one step: which operation an edge runs, for every mode and position (43_dispatch_and_host.md section 1,
30_encoding.md section 4). `v` is the level sampled: 0 on a line the host holds low, else what the peripheral drives, which is
the model's reading of the wired line (20_memory.md section 1; assumption log 16). -/
def Obligations.EdgeDispatchFollowsModeAndPosition : Prop :=
  ∀ (s : State) (c d v : Bit) (k : LineFault) (es : List Event),
    s.events = .edge c d k :: es → s.clkDrv = .released →
    (s.dataDrv = .low → v = 0#1) → (s.dataDrv ≠ .low → v = d) →
    (s.mode = .read →
      (s.rxPos = 0 → step s = exec (.rxStart v k) { s with events := es }) ∧
      (1 ≤ s.rxPos → s.rxPos ≤ 8 → step s = exec (.rxData s.rxPos v) { s with events := es }) ∧
      (s.rxPos = 9 → step s = exec (.rxParity v k) { s with events := es }) ∧
      (s.rxPos = 10 → step s = exec (.rxStop v k) { s with events := es }) ∧
      (11 ≤ s.rxPos → step s = .fault (.illegalPosition .read s.rxPos))) ∧
    (s.mode = .write →
      (s.txPos = 0 → step s = exec .txIgnore { s with events := es }) ∧
      (1 ≤ s.txPos → s.txPos ≤ 9 → step s = exec (.txBit s.txPos) { s with events := es }) ∧
      (s.txPos = 10 → step s = exec .txStop { s with events := es }) ∧
      (s.txPos = 11 → step s = exec (.txAck v) { s with events := es }) ∧
      (12 ≤ s.txPos → step s = .fault (.illegalPosition .write s.txPos)))

/-- R92: an illegal selection faults, in every state. -/
def Obligations.IllegalSelectionFaults : Prop :=
  ∀ (m : Mode) (p : Nat) (s : State), exec (.illegal m p) s = .fault (.illegalPosition m p)

/-! ## The receive machine -/

/-- R126, with its selection and key. -/
def Obligations.RxStartTakesAStartBitOrAborts : Prop :=
  ∀ (k : LineFault) (s : State),
    (s.mode = .read → s.rxPos = 0 → selectEdge s = .rxStart) ∧ (∀ d, (encode (.rxStart d k)).b0 = 0x00#8) ∧
    exec (.rxStart 0#1 k) s = .next { s with rxPos := 1 } ∧
    exec (.rxStart 1#1 k) s = .next (abortRead .frameStart k s)

/-- R127, with its selection and keys: the sampled level becomes bit `p-1` of the accumulator, the other seven bits stay, the position advances by 1,
nothing else changes. -/
def Obligations.RxDataStoresOneBit : Prop :=
  ∀ (p : Nat) (d : Bit) (s : State), 1 ≤ p → p ≤ 8 →
    (s.mode = .read → s.rxPos = p → selectEdge s = .rxData p) ∧ (encode (.rxData p d)).b0.toNat = p ∧
    ∃ acc : Byte, exec (.rxData p d) s = .next { s with rxAcc := acc, rxPos := p + 1 } ∧
      bitAt acc (p - 1) = d ∧ ∀ i, i ≠ p - 1 → bitAt acc i = bitAt s.rxAcc i

/-- R128, with its selection and key, and the check in terms of the count of set bits: data and parity bit together hold an odd number of ones. -/
def Obligations.RxParityAcceptsOddTotals : Prop :=
  ∀ (d : Bit) (k : LineFault) (s : State),
    (s.mode = .read → s.rxPos = 9 → selectEdge s = .rxParity) ∧ (encode (.rxParity d k)).b0 = 0x09#8 ∧
    ((popcount s.rxAcc + d.toNat) % 2 = 1 → exec (.rxParity d k) s = .next { s with rxPos := 10 }) ∧
    ((popcount s.rxAcc + d.toNat) % 2 = 0 → exec (.rxParity d k) s = .next (abortRead .parity k s))

/-- R129, with its selection and key and the delivery of R171: the byte goes to the callback or to the inbox, once, and the receive state is cleared; a
stop bit of 0 aborts. -/
def Obligations.RxStopDeliversOrAborts : Prop :=
  ∀ (k : LineFault) (s : State),
    (s.mode = .read → s.rxPos = 10 → selectEdge s = .rxStop) ∧ (∀ d, (encode (.rxStop d k)).b0 = 0x0A#8) ∧
    (∀ f, s.cbEnabled = true → s.callback = some f → exec (.rxStop 1#1 k) s =
      .next { s with rxPos := 0, rxAcc := 0#8, trace := s.trace ++ [.delivered (.callback f) s.rxAcc] }) ∧
    (s.cbEnabled = false ∨ s.callback = none → (∀ n, s.cfg.inboxCapacity = some n → s.inbox.length < n) →
      exec (.rxStop 1#1 k) s =
        .next { s with
          rxPos := 0
          rxAcc := 0#8
          inbox := s.inbox ++ [s.rxAcc]
          trace := s.trace ++ [.delivered .inbox s.rxAcc] }) ∧
    exec (.rxStop 0#1 k) s = .next (abortRead .frameStop k s)

/-- U7: an append to a full inbox of finite capacity is refused (43_dispatch_and_host.md section 3). -/
def Obligations.FullInboxIsRefused : Prop :=
  ∀ (k : LineFault) (s : State) (n : Nat), s.cbEnabled = false ∨ s.callback = none →
    s.cfg.inboxCapacity = some n → n ≤ s.inbox.length → exec (.rxStop 1#1 k) s = .refused .inboxFull

/-- R131: abort-read raises, clears the receive state and starts the resend of 0xFE; with the gate taken it only clears.
Its `k` counts only where a line configuration can fail. -/
def Obligations.AbortReadStartsTheResend : Prop :=
  ∀ (e : ErrorCond) (k : LineFault) (s : State),
    (s.gate = .available → (s.cfg.lineCfgCanFail = false ∨ k = .none) →
      abortRead e k s =
        { writeStarted 0xFE#8 s with txFrame := 0x5FC#11, trace := s.trace ++ [.raised e] ++ initiationActions s }) ∧
    (s.gate = .taken →
      abortRead e k s = { s with rxPos := 0, rxAcc := 0#8, trace := s.trace ++ [.raised e] }) ∧
    (s.gate = .available → s.cfg.lineCfgCanFail = true → k ≠ .none →
      (abortRead e k s).mode = .read ∧ (abortRead e k s).gate = .taken ∧
      (abortRead e k s).rxPos = 0 ∧ (abortRead e k s).rxAcc = 0#8 ∧
      (abortRead e k s).txPos = 0 ∧ (abortRead e k s).txOutcome = .inactive ∧
      (abortRead e k s).txFrame = 0x5FC#11)

/-! ## The transmit machine -/

/-- R141 and R143, with the event code: a start that takes the gate writes its fields and drives the lines in order; a busy start changes
nothing. -/
def Obligations.TxStartTakesTheGateOrIsBusy : Prop :=
  ∀ (b : Byte) (k : LineFault) (s : State),
    keyEv (encode (.txStart b k)).b0 = 1#3 ∧
    (s.gate = .available → (s.cfg.lineCfgCanFail = false ∨ k = .none) →
      exec (.txStart b k) s =
        .next { writeStarted b s with trace := s.trace ++ initiationActions s ++ [.status .ok] }) ∧
    (s.gate = .taken → exec (.txStart b k) s = .next { s with trace := s.trace ++ [.status .eBusy] })

/-- R142: a failed line configuration at step 4, 5 or 7. The two drives are free values, so nothing is said of them. -/
def Obligations.FailedConfigurationKeepsTheGate : Prop :=
  ∀ (b : Byte) (k : LineFault) (s : State), s.gate = .available → s.cfg.lineCfgCanFail = true → k ≠ .none →
    ∃ (cd : ClkDrv) (dd : DataDrv), exec (.txStart b k) s =
      .next { s with
        mode := .read
        txPos := 0
        txOutcome := .inactive
        gate := .taken
        txFrame := mkFrame b
        rxPos := if k = .step7 then 0 else s.rxPos
        rxAcc := if k = .step7 then 0#8 else s.rxAcc
        clkDrv := cd
        dataDrv := dd
        draws := s.draws + 1
        trace := s.trace
          ++ (if k = .step4 then [] else [.line .clkLow, .line (.hold s.cfg.tInhibitUs)])
          ++ (if k = .step7 then [.line (.dataSet 0#1)] else [])
          ++ [.status .eConfig] }

/-- R235: after a failed configuration (READ mode, gate taken) no step but a RESET gives the gate back, with the default
`GIVEUP_POLICY`; so every later start is busy. -/
def Obligations.AbandonedGateStaysTaken : Prop :=
  ∀ (s t : State) (e : Event) (es : List Event), s.events = e :: es → e ≠ .reset →
    s.cfg.giveupPolicy = .keep → s.mode = .read → s.gate = .taken → step s = .next t →
    t.mode = .read ∧ t.gate = .taken ∧
      ∀ b k, exec (.txStart b k) t = .next { t with trace := t.trace ++ [.status .eBusy] }

/-- R144 and R91, with the selection and the key. -/
def Obligations.TxIgnoreDoesNothing : Prop :=
  ∀ s : State, (s.mode = .write → s.txPos = 0 → selectEdge s = .txIgnore) ∧ (encode .txIgnore).b0 = 0x10#8 ∧
    exec .txIgnore s = .next s

/-- R145, with its selection and keys and the send-bit step of R147. -/
def Obligations.TxBitDrivesItsFrameBit : Prop :=
  ∀ (p : Nat) (s : State), 1 ≤ p → p ≤ 9 →
    (s.mode = .write → s.txPos = p → selectEdge s = .txBit p) ∧ (encode (.txBit p)).b0.toNat = 16 + p ∧
    (s.txFrame.getLsbD p = false → exec (.txBit p) s =
      .next { s with dataDrv := .low, txPos := p + 1, trace := s.trace ++ [.line (.dataSet 0#1)] }) ∧
    (s.txFrame.getLsbD p = true → exec (.txBit p) s =
      .next { s with dataDrv := .high, txPos := p + 1, trace := s.trace ++ [.line (.dataSet 1#1)] })

/-- R146, with its selection and key: the stop bit is sent and DATA released in one operation; the bit is 1 in every state that keeps R27's fixed
bits. -/
def Obligations.TxStopSendsAndReleases : Prop :=
  ∀ s : State,
    (s.mode = .write → s.txPos = 10 → selectEdge s = .txStop) ∧ (encode .txStop).b0 = 0x1A#8 ∧
    exec .txStop s = .next { s with
      dataDrv := .released
      txPos := 11
      trace := s.trace ++ [.line (.dataSet (frameBit s.txFrame 10)), .line .dataRelease] } ∧
    (s.FrameBits → frameBit s.txFrame 10 = 1#1)

/-- R148, with its selection and key. -/
def Obligations.TxAckFinishesTheWrite : Prop :=
  ∀ s : State,
    (s.mode = .write → s.txPos = 11 → selectEdge s = .txAck) ∧ (∀ d, (encode (.txAck d)).b0 = 0x1B#8) ∧
    exec (.txAck 0#1) s = .next { s with txOutcome := .success, mode := .read, txPos := 0, gate := .available } ∧
    exec (.txAck 1#1) s = .next { s with txOutcome := .failure, mode := .read, txPos := 0, gate := .available }

/-! ## Host operations and reset -/

/-- R168, with its event code: with the gate available a finished write's outcome is returned and reset, and the gate is
available again; an outcome of `INACTIVE` or `ACTIVE` is refused. That it does so with no TX.START before it is the model's
choice (assumption log 34). -/
def Obligations.TxCollectReturnsTheOutcomeOnce : Prop :=
  ∀ s : State, s.gate = .available →
    keyEv (encode .txCollect).b0 = 2#3 ∧
    (s.txOutcome = .success →
      exec .txCollect s = .next { s with txOutcome := .inactive, trace := s.trace ++ [.status .ok] }) ∧
    (s.txOutcome = .failure →
      exec .txCollect s = .next { s with txOutcome := .inactive, trace := s.trace ++ [.status .eAck] }) ∧
    (s.txOutcome = .inactive ∨ s.txOutcome = .active →
      exec .txCollect s = .refused (.collectWithoutOutcome s.txOutcome))

/-- A collection is not enabled while the gate is taken, and the caller waits (43_dispatch_and_host.md section 2). That such an
attempt is a step that changes no field is read from the vector P7 (assumption log 12). -/
def Obligations.TxCollectWaitsForTheGate : Prop :=
  ∀ s : State, s.gate = .taken → exec .txCollect s = .next { s with trace := s.trace ++ [.waiting] }

/-- R170, with its event code: a give-up changes no field with `KEEP`, and makes the gate available with `RELEASE`; the exchange goes on. That it runs in every
state, with no caller waiting and with the gate available too, is the model's choice (assumption log 13). -/
def Obligations.TxGiveupFollowsThePolicy : Prop :=
  ∀ s : State,
    keyEv (encode .txGiveup).b0 = 3#3 ∧
    (s.cfg.giveupPolicy = .keep →
      exec .txGiveup s = .next { s with trace := s.trace ++ [.status .eTimeoutWrite] }) ∧
    (s.cfg.giveupPolicy = .release →
      exec .txGiveup s = .next { s with gate := .available, trace := s.trace ++ [.status .eTimeoutWrite] })

/-- R220, with its event code: every field at its reset value, whatever it held; of the frame register nothing is said. -/
def Obligations.ResetRestoresTheBaseline : Prop :=
  ∀ s : State, keyEv (encode .reset).b0 = 4#3 ∧ ∃ f : Frame, exec .reset s =
    .next { State.reset with
      txFrame := f
      cfg := s.cfg
      events := s.events
      trace := s.trace
      draws := s.draws + 1 }

/-- R42 and R221: the reset state has the values of the table, is quiescent and meets the invariants of R40. The frame
register's value is the model's choice (assumption log 5) and nothing rests on it. -/
def Obligations.ResetStateIsTheBaseline : Prop :=
  State.reset.Inv ∧ State.reset.DefaultParams ∧ State.reset.Quiescent ∧
    State.reset.txOutcome = .inactive ∧ State.reset.txPos = 0 ∧ State.reset.rxAcc = 0#8 ∧
    State.reset.clkDrv = .released ∧ State.reset.dataDrv = .released ∧
    State.reset.cbSet = false ∧ State.reset.cbEnabled = false ∧ State.reset.inbox = []

/-! ## Facade requests -/

/-- R175, with its key. -/
def Obligations.ConfigureRegistersACallback : Prop :=
  ∀ s : State,
    (∀ f, (encode (.configure f)).b0 = 0xA0#8) ∧
    exec (.configure none) s = .next { s with trace := s.trace ++ [.status .eInval] } ∧
    ∀ f, exec (.configure (some f)) s = .next { s with callback := some f, trace := s.trace ++ [.status .ok] }

/-- R176, with its key. That a wait is not a step of its own is the model's choice (assumption log 18). -/
def Obligations.ReadTakesTheOldestByte : Prop :=
  ∀ s : State,
    (encode .read).b0 = 0xA1#8 ∧
    (∀ b rest, s.inbox = b :: rest →
      exec .read s = .next { s with inbox := rest, trace := s.trace ++ [.byteRead b] }) ∧
    (s.inbox = [] → exec .read s = .next { s with trace := s.trace ++ [.status .eTimeoutRead] })

/-- R177, with its keys: the flag is set or cleared, and the inbox flushed exactly when the call changes the flag. The status `OK` is read
from R179 (assumption log 24). -/
def Obligations.CallbackToggleFlushesOnChange : Prop :=
  ∀ s : State,
    (encode .enableCb).b0 = 0xA2#8 ∧ (encode .disableCb).b0 = 0xA3#8 ∧
    (s.cbEnabled = false →
      exec .enableCb s = .next { s with cbEnabled := true, inbox := [], trace := s.trace ++ [.status .ok] } ∧
      exec .disableCb s = .next { s with trace := s.trace ++ [.status .ok] }) ∧
    (s.cbEnabled = true →
      exec .disableCb s = .next { s with cbEnabled := false, inbox := [], trace := s.trace ++ [.status .ok] } ∧
      exec .enableCb s = .next { s with trace := s.trace ++ [.status .ok] })

/-! ## The codec -/

/-- R111, with its key: the operation gives 1 exactly for an even count of set bits, which is the complement of the exclusive or of the
eight bits, and writes no field. -/
def Obligations.ParityIsOdd : Prop :=
  ∀ (b : Byte) (s : State), (encode (.parity b)).b0 = 0xE0#8 ∧ ∃ r : Bit,
    exec (.parity b) s = .next { s with trace := s.trace ++ [.bitResult r] } ∧
    (popcount b % 2 = 0 → r = 1#1) ∧ (popcount b % 2 = 1 → r = 0#1) ∧
    r = ~~~(bitAt b 0 ^^^ bitAt b 1 ^^^ bitAt b 2 ^^^ bitAt b 3 ^^^ bitAt b 4 ^^^ bitAt b 5 ^^^ bitAt b 6 ^^^ bitAt b 7)

/-- R113, with its key: the check is true exactly for the parity bit of the byte, so exactly when data and parity hold an odd
number of ones; it writes no field; a corruption of an even number of the nine bits passes it. -/
def Obligations.ChkparAcceptsThePairingBit : Prop :=
  ∀ (b : Byte) (r : Bit) (s : State), (encode (.chkpar b r)).b0 = 0xE1#8 ∧ ∃ v : Bool,
    exec (.chkpar b r) s = .next { s with trace := s.trace ++ [.boolResult v] } ∧
    (v = true ↔ (popcount b + r.toNat) % 2 = 1) ∧
    (v = true ↔ r = parityOf b) ∧ chkParity b (parityOf b) = true ∧ chkParity b (~~~(parityOf b)) = false ∧
    ∀ (m : Byte) (q : Bit), (popcount m + q.toNat) % 2 = 0 → chkParity (b ^^^ m) (r ^^^ q) = v

/-- R114, with its key: the frame's bits, its number, and that no field is written. -/
def Obligations.MkframeLaysOutTheFrame : Prop :=
  ∀ (b : Byte) (s : State), (encode (.mkframe b)).b0 = 0xE2#8 ∧ ∃ f : Frame,
    exec (.mkframe b) s = .next { s with trace := s.trace ++ [.frameResult f] } ∧
    frameBit f 0 = 0#1 ∧ (∀ i, i < 8 → frameBit f (i + 1) = bitAt b i) ∧
    frameBit f 9 = parityOf b ∧ frameBit f 10 = 1#1 ∧
    f.toNat = 1024 + 512 * (parityOf b).toNat + 2 * b.toNat

/-- R112 (a) to (d): odd totals, one flipped bit flips the parity, complementing keeps it, half of the bytes have parity 1
(40_codec.md section 2). -/
def Obligations.ParityLaws : Prop :=
  (∀ b : Byte,
    (popcount b + (parityOf b).toNat) % 2 = 1 ∧
    (∀ i, i < 8 → parityOf (b ^^^ (1#8 <<< i)) = ~~~(parityOf b)) ∧
    parityOf (~~~b) = parityOf b) ∧
  ((List.range 256).filter (fun n => parityOf (BitVec.ofNat 8 n) = 1#1)).length = 128

/-- R116: the data field of a built frame is its byte, and building from the data field gives the frame back exactly for
valid frames. -/
def Obligations.UnframeInvertsMkframe : Prop :=
  (∀ b : Byte, unframe (mkFrame b) = b) ∧
  (∀ f : Frame, f.valid = true ↔ frameBit f 0 = 0#1 ∧ frameBit f 10 = 1#1 ∧ frameBit f 9 = parityOf (unframe f)) ∧
  (∀ f : Frame, mkFrame (unframe f) = f ↔ f.valid = true)

/-- R81: the numbers that are frames. -/
def Obligations.FramesAsNumbers : Prop :=
  (∀ b : Byte, (mkFrame b).toNat = 1024 + 512 * (parityOf b).toNat + 2 * b.toNat ∧
    (mkFrame b).toNat % 2 = 0 ∧ 0x402 ≤ (mkFrame b).toNat ∧ (mkFrame b).toNat ≤ 0x7FE) ∧
  (mkFrame 0x01#8).toNat = 0x402 ∧ (mkFrame 0xFF#8).toNat = 0x7FE ∧
  (∀ b c : Byte, mkFrame b = mkFrame c → b = c) ∧
  ((List.range 2048).filter (fun n => Frame.valid (BitVec.ofNat 11 n))).length = 256

/-! ## Whole frames and whole exchanges -/

/-- R132: the eleven edges of a frame deliver its byte once and leave every other field as it was, whether they come as
eleven events or as one FRAME11. That a FRAME11 is one operation is the model's reading of its row (assumption log 21). -/
def Obligations.WholeFrameIsDelivered : Prop :=
  ∀ (b : Byte) (s : State), s.AwaitsFrame → s.CanDeliver →
    exec (.frame11 (parityOf b) b) s = .next (delivered b s) ∧
    runEvents (rxFrame b) s = .next (delivered b s)

/-- A frame whose parity bit is wrong (30_encoding.md section 3, 70_reset_and_hazards.md section 3): the tenth edge aborts,
and the eleventh is counted as the first edge of the resend. That a FRAME11 admits a wrong parity bit and goes on with its
eleventh edge after the abort is the model's reading of its row (assumption log 21). -/
def Obligations.CorruptFrameStartsTheResend : Prop :=
  ∀ (p : Bit) (b : Byte) (s : State), s.AwaitsFrame → s.gate = .available → p ≠ parityOf b →
    exec (.frame11 p b) s = .next { writeStarted 0xFE#8 s with
      txPos := 2
      trace := s.trace ++ [.raised .parity] ++ initiationActions s ++ [.line (.dataSet 0#1)] }

/-- The classification of eleven sampled levels (30_encoding.md section 3): which edge decides, and what it does. -/
def Obligations.ElevenLevelsAreClassified : Prop :=
  ∀ (b : Byte) (p : Bit) (s : State), s.AwaitsFrame →
    edges [1#1] s = .next (abortRead .frameStart .none s) ∧
    (p ≠ parityOf b →
      edges (0#1 :: dataBits b ++ [p]) s = .next (abortRead .parity .none { s with rxPos := 9, rxAcc := b })) ∧
    (p = parityOf b →
      edges (0#1 :: dataBits b ++ [p, 0#1]) s =
        .next (abortRead .frameStop .none { s with rxPos := 10, rxAcc := b })) ∧
    (p = parityOf b → s.CanDeliver →
      edges (0#1 :: dataBits b ++ [p, 1#1]) s = .next (delivered b s))

/-- R150: a start and eleven edges send the frame, take the acknowledgment and give the gate back, whether they come as
twelve events or as one EXCHANGE12. That an EXCHANGE12 is one operation is the model's choice (assumption log 22). -/
def Obligations.WholeExchangeSendsTheFrame : Prop :=
  ∀ (a : Bit) (b : Byte) (s t : State), s.mode = .read → s.gate = .available →
    t = { s with
      mode := .read
      rxPos := 0
      rxAcc := 0#8
      txPos := 0
      txFrame := mkFrame b
      txOutcome := if a = 0#1 then .success else .failure
      gate := .available
      clkDrv := .released
      dataDrv := .released
      trace := s.trace ++ initiationActions s ++ [.status .ok] ++ exchangeActions (mkFrame b) } →
    exec (.exchange12 a b) s = .next t ∧ runEvents (.start b .none :: txClock a) s = .next t

/-- An exchange that meets a taken gate is turned away like the start it begins with (42_transmit.md section 2). That no
edge follows is the model's choice (assumption log 22). -/
def Obligations.BusyExchangeIsTurnedAway : Prop :=
  ∀ (a : Bit) (b : Byte) (s : State), s.gate = .taken →
    exec (.exchange12 a b) s = .next { s with trace := s.trace ++ [.status .eBusy] }

/-- The two wire formats are their pseudo-operations (30_encoding.md section 7, R96): in every state a FRAME11 is its eleven
edges, and an EXCHANGE12 whose start takes the gate is a start and eleven edges. R97 says that the two rows name formats and not
operations, so that they are these operations is the model's choice (assumption logs 21 and 22). -/
def Obligations.WireFormatsAreTheirEvents : Prop :=
  ∀ (p a : Bit) (b : Byte) (s : State),
    exec (.frame11 p b) s = runEvents (rxBits (wireBits (frameOf p b))) s ∧
    (s.gate = .available → exec (.exchange12 a b) s = runEvents (.start b .none :: txClock a) s)

/-- The blocking write (43_dispatch_and_host.md section 2, 42_transmit.md section 2, 95_test_vectors.md S6 and S7), its five
results: a peripheral that clocks eleven edges and acknowledges gives `OK`, one that does not gives `E_ACK`, and the gate ends
available; a caller that gives up after any events but a RESET, which R220 leaves outside every claim, gives `E_TIMEOUT_WRITE`,
the gate by the policy; a taken gate gives `E_BUSY` at once, a failed line configuration `E_CONFIG`, and neither waits. The
procedure and the events of its wait as an argument are the model's choice (assumption log 33). -/
def Obligations.BlockingWriteReportsTheAcknowledgment : Prop :=
  ∀ (b : Byte) (k : LineFault) (s : State),
    (∀ a : Bit, s.mode = .read → s.gate = .available → (s.cfg.lineCfgCanFail = false ∨ k = .none) → ∃ t,
      writeBlocking b k (txClock a) .collect s = .next t ∧
      t.gate = .available ∧ t.mode = .read ∧ t.txOutcome = .inactive ∧ t.txFrame = mkFrame b ∧
      t.trace.getLast? = some (.status (if a = 0#1 then .ok else .eAck))) ∧
    (∀ during u, Event.reset ∉ during → s.gate = .available → (s.cfg.lineCfgCanFail = false ∨ k = .none) →
      runEvents during { writeStarted b s with trace := s.trace ++ initiationActions s ++ [.status .ok] } = .next u →
      writeBlocking b k during .giveup s = .next { u with
        gate := if u.cfg.giveupPolicy = .keep then u.gate else .available
        trace := u.trace ++ [.status .eTimeoutWrite] }) ∧
    (∀ during e, s.gate = .taken →
      writeBlocking b k during e s = .next { s with trace := s.trace ++ [.status .eBusy] }) ∧
    (∀ during e, s.gate = .available → s.cfg.lineCfgCanFail = true → k ≠ .none → ∃ t,
      writeBlocking b k during e s = .next t ∧ exec (.txStart b k) s = .next t ∧
      t.gate = .taken ∧ t.mode = .read ∧ t.txOutcome = .inactive ∧ t.trace.getLast? = some (.status .eConfig))

/-! ## Frames: what an operation leaves alone -/

/-- A receive step that does not abort (41_receive.md section 1): RX.START on a 0, RX.DATA, RX.PARITY on a match, RX.STOP on
a 1 change the receive registers alone, and RX.STOP also the inbox. -/
def Obligations.ReceiveStepsLeaveTheRest : Prop :=
  ∀ (s t : State) (i : Instr) (k : LineFault) (d : Bit),
    (i = .rxStart 0#1 k ∨ (∃ p, i = .rxData p d) ∨ (i = .rxParity d k ∧ d = parityOf s.rxAcc) ∨ i = .rxStop 1#1 k) →
    exec i s = .next t →
    SameControl s t ∧ SameTx s t ∧ SameLines s t ∧ SameModel s t ∧ t.draws = s.draws ∧
      t.callback = s.callback ∧ t.cbEnabled = s.cbEnabled ∧
      (i ≠ .rxStop 1#1 k → t.inbox = s.inbox ∧ t.trace = s.trace) ∧ (i = .rxStart 0#1 k → t.rxAcc = s.rxAcc)

/-- An abort (41_receive.md section 3): nothing is delivered, the environment's fields stay, the receive registers are
cleared. -/
def Obligations.AbortDeliversNothing : Prop :=
  ∀ (s t : State) (i : Instr) (k : LineFault),
    (i = .rxStart 1#1 k ∨ (∃ d, i = .rxParity d k ∧ d ≠ parityOf s.rxAcc) ∨ i = .rxStop 0#1 k) →
    exec i s = .next t →
    SameEnv s t ∧ SameModel s t ∧ t.rxPos = 0 ∧ t.rxAcc = 0#8 ∧
      (∀ b sink, Output.delivered sink b ∈ t.trace → Output.delivered sink b ∈ s.trace)

/-- The continuation steps (42_transmit.md section 3): the receive registers, the frame, CLOCK and the environment stay;
mode, gate and outcome change at TX.ACK alone, and TX.ACK drives no line. -/
def Obligations.TransmitStepsLeaveTheRest : Prop :=
  ∀ (s t : State) (i : Instr) (p : Nat) (d : Bit),
    (i = .txIgnore ∨ i = .txBit p ∨ i = .txStop ∨ i = .txAck d) → exec i s = .next t →
    SameRx s t ∧ SameEnv s t ∧ SameModel s t ∧ t.draws = s.draws ∧
      t.txFrame = s.txFrame ∧ t.clkDrv = s.clkDrv ∧
      (i ≠ .txAck d → SameControl s t ∧ t.txOutcome = s.txOutcome) ∧
      (i = .txAck d → t.dataDrv = s.dataDrv ∧ t.trace = s.trace)

/-- The host's operations (42_transmit.md section 2, 43_dispatch_and_host.md section 2, 70_reset_and_hazards.md section 1):
TX.START leaves the environment alone; TX.COLLECT changes the outcome alone and TX.GIVEUP the gate alone, each with its
status. That RESET keeps the parameters, the pending events and the trace is the model's choice (assumption log 31). -/
def Obligations.HostOperationsLeaveTheRest : Prop :=
  ∀ s t : State,
    (∀ b k, exec (.txStart b k) s = .next t → SameEnv s t ∧ SameModel s t) ∧
    (exec .txCollect s = .next t →
      SameControl s t ∧ SameRx s t ∧ SameLines s t ∧ SameEnv s t ∧ SameModel s t ∧ t.draws = s.draws ∧
        t.txFrame = s.txFrame ∧ t.txPos = s.txPos) ∧
    (exec .txGiveup s = .next t →
      t.mode = s.mode ∧ SameRx s t ∧ SameTx s t ∧ SameLines s t ∧ SameEnv s t ∧ SameModel s t ∧ t.draws = s.draws) ∧
    (exec .reset s = .next t → SameModel s t ∧ t.trace = s.trace)

/-- The facade requests and the pure functions touch no field of the block (43_dispatch_and_host.md sections 4 and 5,
40_codec.md section 1), and each leaves the environment's fields that its rule does not name. -/
def Obligations.FacadeAndPureOperationsLeaveTheBlock : Prop :=
  ∀ (s t : State) (i : Instr) (f : Option CallbackRef) (b : Byte) (r : Bit),
    (i = .configure f ∨ i = .read ∨ i = .enableCb ∨ i = .disableCb ∨ i = .parity b ∨ i = .chkpar b r ∨ i = .mkframe b) →
    exec i s = .next t →
    SameBlock s t ∧ SameModel s t ∧ t.draws = s.draws ∧
      (i ≠ .configure f → t.callback = s.callback) ∧
      (i ≠ .enableCb → i ≠ .disableCb → t.cbEnabled = s.cbEnabled) ∧
      (i ≠ .read → i ≠ .enableCb → i ≠ .disableCb → t.inbox = s.inbox)

/-- A whole frame and a whole exchange (30_encoding.md section 1): the parameters, the pending events and the callback stay;
an exchange leaves the inbox alone too. That FRAME11 and EXCHANGE12 are operations, and that no edge follows an exchange
that is turned away, is the model's reading and choice: R97 calls them formats (assumption logs 21 and 22). -/
def Obligations.WireOperationsLeaveTheRest : Prop :=
  ∀ s t : State,
    (∀ p b, exec (.frame11 p b) s = .next t →
      SameModel s t ∧ t.callback = s.callback ∧ t.cbEnabled = s.cbEnabled ∧ ∃ bs, t.inbox = s.inbox ++ bs) ∧
    (∀ a b, exec (.exchange12 a b) s = .next t → SameModel s t ∧ SameEnv s t)

/-! ## Invariants and whole-machine rules -/

/-- Every step keeps the invariants (I1) to (I7) of R40, and (I8) while the last write shows, with the default
`LINE_CFG_CAN_FAIL` and `GIVEUP_POLICY` (10_state.md section 10). -/
def Obligations.StepKeepsTheInvariants : Prop :=
  ∀ s t : State, s.DefaultParams → s.Inv → step s = .next t → t.Inv

/-- The positions stay within 0..10 and 0..11 whatever the parameters (10_state.md section 2). -/
def Obligations.StepKeepsPositionsInRange : Prop :=
  ∀ s t : State, s.PosInRange → step s = .next t → t.PosInRange

/-- A counter never holds more than `POS_WIDTH` bits, in every state and for every width (10_state.md section 2,
00_scope.md section 5). That the width is at least four bits is read from R8 and R24 (assumption log 3). -/
def Obligations.StepKeepsCountersInTheirWidth : Prop :=
  ∀ s t : State, s.PosInWidth → step s = .next t → t.PosInWidth

/-- With line configurations that can fail, what is left of (I1): WRITE mode holds the gate (10_state.md section 10, R41). -/
def Obligations.StepKeepsTheGateHeldByAWrite : Prop :=
  ∀ s t : State, s.cfg.giveupPolicy = .keep → s.WriteHoldsGate → step s = .next t → t.WriteHoldsGate

/-- (I8) of R40 for every operation: the fixed bits of the frame register survive every operation but RESET, and a start
that takes the gate establishes them (10_state.md sections 3 and 10). -/
def Obligations.FrameRegisterKeepsItsFixedBits : Prop :=
  (∀ (i : Instr) (s t : State), i ≠ .reset → s.FrameBits → exec i s = .next t → t.FrameBits) ∧
  (∀ (b : Byte) (k : LineFault) (s t : State), s.gate = .available → exec (.txStart b k) s = .next t → t.FrameBits)

/-- Only TX.ACK and RESET end a write (10_state.md section 2, R21; R238): a step out of WRITE mode is the edge at position 11
or a RESET, or a FRAME11, which runs eleven edges. -/
def Obligations.OnlyAckOrResetEndsAWrite : Prop :=
  ∀ (s t : State) (e : Event) (es : List Event), s.WriteHoldsGate → s.mode = .write →
    s.events = e :: es → step s = .next t → t.mode = .read →
    e = .reset ∨ (∃ p b, e = .frame11 p b) ∨ (s.txPos = 11 ∧ ∃ c d k, e = .edge c d k)

/-- The frame is immutable during transmission (20_memory.md section 9, R66 (b)): while a write is in flight no step but a
RESET changes it. A FRAME11 runs eleven edges, so it may end the write and start another: it is left out. -/
def Obligations.FrameIsImmutableDuringAWrite : Prop :=
  ∀ (s t : State) (e : Event) (es : List Event), s.WriteHoldsGate → s.mode = .write →
    s.events = e :: es → e ≠ .reset → (∀ p b, e ≠ .frame11 p b) → step s = .next t → t.txFrame = s.txFrame

/-- Bytes leave the inbox in the order they came (43_dispatch_and_host.md section 3, 20_memory.md section 10): an edge appends
the accumulator or nothing, a FRAME11 only appends, a READ takes the oldest byte, a toggle of the callback keeps or empties the
inbox, a RESET empties it, and every other event leaves it alone. -/
def Obligations.InboxIsAQueue : Prop :=
  ∀ (s t : State) (e : Event) (es : List Event), s.events = e :: es → step s = .next t →
    match e with
    | .edge _ _ _ => t.inbox = s.inbox ∨ t.inbox = s.inbox ++ [s.rxAcc]
    | .frame11 _ _ => ∃ bs, t.inbox = s.inbox ++ bs
    | .read => (s.inbox = [] ∧ t.inbox = []) ∨ ∃ b, s.inbox = b :: t.inbox ∧ t.trace = s.trace ++ [.byteRead b]
    | .enableCb => t.inbox = if s.cbEnabled = true then s.inbox else []
    | .disableCb => t.inbox = if s.cbEnabled = true then [] else s.inbox
    | .reset => t.inbox = []
    | _ => t.inbox = s.inbox

/-- No step changes a parameter: they are fixed for a machine (00_scope.md section 5; that they stand in the state is the
model's choice, assumption log 4). -/
def Obligations.ParametersAreFixed : Prop :=
  ∀ s t : State, step s = .next t → t.cfg = s.cfg

/-- The output trace only grows, and no operation reads it: with another trace an operation does the same and appends the
same (10_state.md section 9, 60_exceptions.md section 1: the block records nothing). The trace is the model's own field
(assumption log 2). -/
def Obligations.TraceIsNeverRead : Prop :=
  ∀ (i : Instr) (s : State) (os : List Output),
    (∀ t, exec i s = .next t → ∃ new, t.trace = s.trace ++ new ∧
      exec i { s with trace := os } = .next { t with trace := os ++ new }) ∧
    (∀ e, exec i s = .fault e → exec i { s with trace := os } = .fault e) ∧
    (∀ e, exec i s = .refused e → exec i { s with trace := os } = .refused e)

/-- R133: the shift-register form agrees with the indexed store after every number of data steps, and the bit sent at a
position is bit 0 of the shifted frame. -/
def Obligations.ShiftRegisterFormAgrees : Prop :=
  (∀ (ds : List Bit) (s : State), ds.length ≤ 8 → s.mode = .read → s.rxPos = 1 → s.rxAcc = 0#8 →
    s.clkDrv = .released → s.dataDrv ≠ .low → ∃ t, edges ds s = .next t ∧
      t.rxPos = 1 + ds.length ∧ ds.foldl shiftIn 0#8 = t.rxAcc <<< (8 - ds.length)) ∧
  (∀ (f : Frame) (p : Nat), frameBit f p = bitAt (f >>> p) 0)
end

