-- ==== Sys2Proof/Laws/Codec.lean ====
section
/-!
SUPPORT. What the codec's helpers, the key's fields and the store of a position do.
-/

namespace Sys2Proof

/-- A bit is 0 or 1 (R10). -/
theorem bit_cases (d : Bit) : d = 0#1 ∨ d = 1#1 := by revert d; decide

theorem bit_ne_zero {d : Bit} (h : d ≠ 0#1) : d = 1#1 := (bit_cases d).resolve_left h

@[simp] theorem bitAt_eq_one {w : Nat} (v : BitVec w) (i : Nat) : bitAt v i = 1#1 ↔ v.getLsbD i = true := by
  unfold bitAt; cases v.getLsbD i <;> decide

@[simp] theorem bitAt_eq_zero {w : Nat} (v : BitVec w) (i : Nat) : bitAt v i = 0#1 ↔ v.getLsbD i = false := by
  unfold bitAt; cases v.getLsbD i <;> decide

/-- A byte has at most eight set bits. -/
theorem popcount_le (b : Byte) : popcount b ≤ 8 := by
  have h (i : Nat) : (bitAt b i).toNat ≤ 1 := Nat.lt_succ_iff.mp (bitAt b i).isLt
  have := h 0; have := h 1; have := h 2; have := h 3; have := h 4; have := h 5; have := h 6; have := h 7
  unfold popcount; omega

/-- The parity check accepts exactly the parity bit. -/
theorem chkParity_eq_true {b : Byte} {r : Bit} : chkParity b r = true ↔ r = parityOf b := by simp [chkParity]

/-- Evaluating a property at all 256 bytes decides the statement over them (R117). -/
theorem everyByte_eq_true {p : Byte → Bool} : everyByte p = true ↔ ∀ b, p b = true := by
  simp only [everyByte, List.all_eq_true, List.mem_range]
  exact ⟨fun h b => by simpa using h b.toNat b.isLt, fun h n _ => h _⟩

/-- The parity property holds of every byte (R117). -/
theorem everyByte_parityProperty : everyByte parityProperty = true := by
  rw [everyByte_eq_true]; decide

/-- The check property holds of every byte (R117). -/
theorem everyByte_checkProperty : everyByte checkProperty = true := by
  simp [everyByte_eq_true, checkProperty, chkParity_eq_true]

/-- The round-trip property holds of every byte (R117). -/
theorem everyByte_roundTripProperty : everyByte roundTripProperty = true := by
  rw [everyByte_eq_true]; decide

/-- The document's properties of the codec's functions hold (R117). -/
theorem codecProperties_hold : codecProperties = true := by
  simp [codecProperties, everyByte_parityProperty, everyByte_checkProperty, everyByte_roundTripProperty]

/-- A value's bit beyond its width is 0. -/
theorem getLsbD_setBit_of_ge (b : Byte) (i j : Nat) (d : Bit) (hj : 8 ≤ j) : (setBit b i d).getLsbD j = false :=
  BitVec.getLsbD_of_ge _ _ hj

/-- The store of R85 writes the bit it names. -/
theorem getLsbD_setBit_self (b : Byte) (i : Nat) (d : Bit) (hi : i < 8) :
    (setBit b i d).getLsbD i = d.getLsbD 0 := by
  obtain rfl | rfl := bit_cases d <;> simp [setBit, hi]

/-- The store of R85 keeps every other bit. -/
theorem getLsbD_setBit_ne (b : Byte) (i j : Nat) (d : Bit) (hij : j ≠ i) :
    (setBit b i d).getLsbD j = b.getLsbD j := by
  by_cases hj : j < 8
  · have h : ¬ (i ≤ j ∧ j - i = 0) := by omega
    have hz : i ≤ j → j - i ≠ 0 := by omega
    obtain rfl | rfl := bit_cases d <;> by_cases hle : i ≤ j <;> simp_all [setBit]
  · rw [getLsbD_setBit_of_ge _ _ _ _ (by omega), BitVec.getLsbD_of_ge _ _ (by omega)]

/-- The frame's fields read back: start bit. -/
@[simp] theorem frameBit_frameOf_start (p : Bit) (b : Byte) : frameBit (frameOf p b) 0 = 0#1 := by
  revert p b; decide

/-- The frame's fields read back: parity bit. -/
@[simp] theorem frameBit_frameOf_parity (p : Bit) (b : Byte) : frameBit (frameOf p b) 9 = p := by
  revert p b; decide

/-- The frame's fields read back: stop bit. -/
@[simp] theorem frameBit_frameOf_stop (p : Bit) (b : Byte) : frameBit (frameOf p b) 10 = 1#1 := by
  revert p b; decide

/-- The frame's fields read back: data. -/
@[simp] theorem unframe_frameOf (p : Bit) (b : Byte) : unframe (frameOf p b) = b := by
  revert p b; decide

/-- The key's mode reads back. -/
theorem keyMode_keyOf (m : Mode) (p : Nat) : keyMode (keyOf 0#3 m.bit p) = m := by
  unfold keyOf; generalize BitVec.ofNat 4 p = q; cases m <;> revert q <;> decide

/-- The key's position reads back where its four bits hold it. -/
theorem keyPos_keyOf (m : Bit) {p : Nat} (h : p < 16) : keyPos (keyOf 0#3 m p) = p := by
  have : ∀ m : Bit, ∀ q : Fin 16, keyPos (keyOf 0#3 m q.1) = q.1 := by decide
  exact this m ⟨p, h⟩

/-- An edge's key as a number. -/
theorem toNat_keyOf (m : Bit) {p : Nat} (h : p < 16) : (keyOf 0#3 m p).toNat = 16 * m.toNat + p := by
  have : ∀ m : Bit, ∀ q : Fin 16, (keyOf 0#3 m q.1).toNat = 16 * m.toNat + q.1 := by decide
  exact this m ⟨p, h⟩

/-- The dispatch table selects well-formed operations at the positions a key can name. -/
theorem edgeOpOf_wf (m : Mode) {p : Nat} (h : p < 16) (d : Bit) (k : LineFault) :
    ((edgeOpOf m p).toInstr d k).wf = true := by
  have : ∀ q : Fin 16, ∀ d : Bit, ((edgeOpOf m q.1).toInstr d k).wf = true := by cases m <;> cases k <;> decide
  exact this ⟨p, h⟩ d

/-- Four bits fit into a counter. -/
theorem Config.sixteen_le (c : Config) : 16 ≤ 2 ^ c.posWidth :=
  Nat.pow_le_pow_right (n := 2) (by decide) (Nat.le_add_right 4 c.extraPosBits)

/-- What a counter stores fits into it. -/
theorem Config.storePos_lt (c : Config) (p : Nat) : c.storePos p < 2 ^ c.posWidth :=
  Nat.mod_lt _ (Nat.two_pow_pos _)

/-- A position of four bits is stored as it is (R24, R130, R149). -/
@[simp] theorem Config.storePos_of_lt (c : Config) {p : Nat} (h : p < 16) : c.storePos p = p :=
  Nat.mod_eq_of_lt (h.trans_le c.sixteen_le)

end Sys2Proof
end

