-- ==== Sys2Proof/Laws/State.lean ====
section
/-!
SUPPORT. Every field after every update of the state: one lemma each, true by definition.
-/

namespace Sys2Proof.Machine

/-! ## State.takeGate -/

@[simp] theorem State.takeGate_mode (s : State) : s.takeGate.mode = s.mode := rfl
@[simp] theorem State.takeGate_rxPos (s : State) : s.takeGate.rxPos = s.rxPos := rfl
@[simp] theorem State.takeGate_rxAcc (s : State) : s.takeGate.rxAcc = s.rxAcc := rfl
@[simp] theorem State.takeGate_txFrame (s : State) : s.takeGate.txFrame = s.txFrame := rfl
@[simp] theorem State.takeGate_txPos (s : State) : s.takeGate.txPos = s.txPos := rfl
@[simp] theorem State.takeGate_txOutcome (s : State) : s.takeGate.txOutcome = s.txOutcome := rfl
@[simp] theorem State.takeGate_gate (s : State) : s.takeGate.gate = .taken := rfl
@[simp] theorem State.takeGate_clkDrv (s : State) : s.takeGate.clkDrv = s.clkDrv := rfl
@[simp] theorem State.takeGate_dataDrv (s : State) : s.takeGate.dataDrv = s.dataDrv := rfl
@[simp] theorem State.takeGate_callback (s : State) : s.takeGate.callback = s.callback := rfl
@[simp] theorem State.takeGate_cbEnabled (s : State) : s.takeGate.cbEnabled = s.cbEnabled := rfl
@[simp] theorem State.takeGate_inbox (s : State) : s.takeGate.inbox = s.inbox := rfl
@[simp] theorem State.takeGate_cfg (s : State) : s.takeGate.cfg = s.cfg := rfl
@[simp] theorem State.takeGate_events (s : State) : s.takeGate.events = s.events := rfl
@[simp] theorem State.takeGate_trace (s : State) : s.takeGate.trace = s.trace := rfl
@[simp] theorem State.takeGate_draws (s : State) : s.takeGate.draws = s.draws := rfl

/-! ## State.releaseGate -/

@[simp] theorem State.releaseGate_mode (s : State) : s.releaseGate.mode = s.mode := rfl
@[simp] theorem State.releaseGate_rxPos (s : State) : s.releaseGate.rxPos = s.rxPos := rfl
@[simp] theorem State.releaseGate_rxAcc (s : State) : s.releaseGate.rxAcc = s.rxAcc := rfl
@[simp] theorem State.releaseGate_txFrame (s : State) : s.releaseGate.txFrame = s.txFrame := rfl
@[simp] theorem State.releaseGate_txPos (s : State) : s.releaseGate.txPos = s.txPos := rfl
@[simp] theorem State.releaseGate_txOutcome (s : State) : s.releaseGate.txOutcome = s.txOutcome := rfl
@[simp] theorem State.releaseGate_gate (s : State) : s.releaseGate.gate = .available := rfl
@[simp] theorem State.releaseGate_clkDrv (s : State) : s.releaseGate.clkDrv = s.clkDrv := rfl
@[simp] theorem State.releaseGate_dataDrv (s : State) : s.releaseGate.dataDrv = s.dataDrv := rfl
@[simp] theorem State.releaseGate_callback (s : State) : s.releaseGate.callback = s.callback := rfl
@[simp] theorem State.releaseGate_cbEnabled (s : State) : s.releaseGate.cbEnabled = s.cbEnabled := rfl
@[simp] theorem State.releaseGate_inbox (s : State) : s.releaseGate.inbox = s.inbox := rfl
@[simp] theorem State.releaseGate_cfg (s : State) : s.releaseGate.cfg = s.cfg := rfl
@[simp] theorem State.releaseGate_events (s : State) : s.releaseGate.events = s.events := rfl
@[simp] theorem State.releaseGate_trace (s : State) : s.releaseGate.trace = s.trace := rfl
@[simp] theorem State.releaseGate_draws (s : State) : s.releaseGate.draws = s.draws := rfl

/-! ## State.emit -/

@[simp] theorem State.emit_mode (s : State) (o : Output) : (s.emit o).mode = s.mode := rfl
@[simp] theorem State.emit_rxPos (s : State) (o : Output) : (s.emit o).rxPos = s.rxPos := rfl
@[simp] theorem State.emit_rxAcc (s : State) (o : Output) : (s.emit o).rxAcc = s.rxAcc := rfl
@[simp] theorem State.emit_txFrame (s : State) (o : Output) : (s.emit o).txFrame = s.txFrame := rfl
@[simp] theorem State.emit_txPos (s : State) (o : Output) : (s.emit o).txPos = s.txPos := rfl
@[simp] theorem State.emit_txOutcome (s : State) (o : Output) : (s.emit o).txOutcome = s.txOutcome := rfl
@[simp] theorem State.emit_gate (s : State) (o : Output) : (s.emit o).gate = s.gate := rfl
@[simp] theorem State.emit_clkDrv (s : State) (o : Output) : (s.emit o).clkDrv = s.clkDrv := rfl
@[simp] theorem State.emit_dataDrv (s : State) (o : Output) : (s.emit o).dataDrv = s.dataDrv := rfl
@[simp] theorem State.emit_callback (s : State) (o : Output) : (s.emit o).callback = s.callback := rfl
@[simp] theorem State.emit_cbEnabled (s : State) (o : Output) : (s.emit o).cbEnabled = s.cbEnabled := rfl
@[simp] theorem State.emit_inbox (s : State) (o : Output) : (s.emit o).inbox = s.inbox := rfl
@[simp] theorem State.emit_cfg (s : State) (o : Output) : (s.emit o).cfg = s.cfg := rfl
@[simp] theorem State.emit_events (s : State) (o : Output) : (s.emit o).events = s.events := rfl
@[simp] theorem State.emit_trace (s : State) (o : Output) : (s.emit o).trace = s.trace ++ [o] := rfl
@[simp] theorem State.emit_draws (s : State) (o : Output) : (s.emit o).draws = s.draws := rfl

/-! ## State.popEvent -/

@[simp] theorem State.popEvent_mode (s : State) : s.popEvent.mode = s.mode := rfl
@[simp] theorem State.popEvent_rxPos (s : State) : s.popEvent.rxPos = s.rxPos := rfl
@[simp] theorem State.popEvent_rxAcc (s : State) : s.popEvent.rxAcc = s.rxAcc := rfl
@[simp] theorem State.popEvent_txFrame (s : State) : s.popEvent.txFrame = s.txFrame := rfl
@[simp] theorem State.popEvent_txPos (s : State) : s.popEvent.txPos = s.txPos := rfl
@[simp] theorem State.popEvent_txOutcome (s : State) : s.popEvent.txOutcome = s.txOutcome := rfl
@[simp] theorem State.popEvent_gate (s : State) : s.popEvent.gate = s.gate := rfl
@[simp] theorem State.popEvent_clkDrv (s : State) : s.popEvent.clkDrv = s.clkDrv := rfl
@[simp] theorem State.popEvent_dataDrv (s : State) : s.popEvent.dataDrv = s.dataDrv := rfl
@[simp] theorem State.popEvent_callback (s : State) : s.popEvent.callback = s.callback := rfl
@[simp] theorem State.popEvent_cbEnabled (s : State) : s.popEvent.cbEnabled = s.cbEnabled := rfl
@[simp] theorem State.popEvent_inbox (s : State) : s.popEvent.inbox = s.inbox := rfl
@[simp] theorem State.popEvent_cfg (s : State) : s.popEvent.cfg = s.cfg := rfl
@[simp] theorem State.popEvent_events (s : State) : s.popEvent.events = s.events.tail := rfl
@[simp] theorem State.popEvent_trace (s : State) : s.popEvent.trace = s.trace := rfl
@[simp] theorem State.popEvent_draws (s : State) : s.popEvent.draws = s.draws := rfl

/-! ## State.pushEvent -/

@[simp] theorem State.pushEvent_mode (s : State) (e : Event) : (s.pushEvent e).mode = s.mode := rfl
@[simp] theorem State.pushEvent_rxPos (s : State) (e : Event) : (s.pushEvent e).rxPos = s.rxPos := rfl
@[simp] theorem State.pushEvent_rxAcc (s : State) (e : Event) : (s.pushEvent e).rxAcc = s.rxAcc := rfl
@[simp] theorem State.pushEvent_txFrame (s : State) (e : Event) : (s.pushEvent e).txFrame = s.txFrame := rfl
@[simp] theorem State.pushEvent_txPos (s : State) (e : Event) : (s.pushEvent e).txPos = s.txPos := rfl
@[simp] theorem State.pushEvent_txOutcome (s : State) (e : Event) : (s.pushEvent e).txOutcome = s.txOutcome := rfl
@[simp] theorem State.pushEvent_gate (s : State) (e : Event) : (s.pushEvent e).gate = s.gate := rfl
@[simp] theorem State.pushEvent_clkDrv (s : State) (e : Event) : (s.pushEvent e).clkDrv = s.clkDrv := rfl
@[simp] theorem State.pushEvent_dataDrv (s : State) (e : Event) : (s.pushEvent e).dataDrv = s.dataDrv := rfl
@[simp] theorem State.pushEvent_callback (s : State) (e : Event) : (s.pushEvent e).callback = s.callback := rfl
@[simp] theorem State.pushEvent_cbEnabled (s : State) (e : Event) : (s.pushEvent e).cbEnabled = s.cbEnabled := rfl
@[simp] theorem State.pushEvent_inbox (s : State) (e : Event) : (s.pushEvent e).inbox = s.inbox := rfl
@[simp] theorem State.pushEvent_cfg (s : State) (e : Event) : (s.pushEvent e).cfg = s.cfg := rfl
@[simp] theorem State.pushEvent_events (s : State) (e : Event) : (s.pushEvent e).events = e :: s.events := rfl
@[simp] theorem State.pushEvent_trace (s : State) (e : Event) : (s.pushEvent e).trace = s.trace := rfl
@[simp] theorem State.pushEvent_draws (s : State) (e : Event) : (s.pushEvent e).draws = s.draws := rfl

/-! ## State.drew -/

@[simp] theorem State.drew_mode (s : State) : s.drew.mode = s.mode := rfl
@[simp] theorem State.drew_rxPos (s : State) : s.drew.rxPos = s.rxPos := rfl
@[simp] theorem State.drew_rxAcc (s : State) : s.drew.rxAcc = s.rxAcc := rfl
@[simp] theorem State.drew_txFrame (s : State) : s.drew.txFrame = s.txFrame := rfl
@[simp] theorem State.drew_txPos (s : State) : s.drew.txPos = s.txPos := rfl
@[simp] theorem State.drew_txOutcome (s : State) : s.drew.txOutcome = s.txOutcome := rfl
@[simp] theorem State.drew_gate (s : State) : s.drew.gate = s.gate := rfl
@[simp] theorem State.drew_clkDrv (s : State) : s.drew.clkDrv = s.clkDrv := rfl
@[simp] theorem State.drew_dataDrv (s : State) : s.drew.dataDrv = s.dataDrv := rfl
@[simp] theorem State.drew_callback (s : State) : s.drew.callback = s.callback := rfl
@[simp] theorem State.drew_cbEnabled (s : State) : s.drew.cbEnabled = s.cbEnabled := rfl
@[simp] theorem State.drew_inbox (s : State) : s.drew.inbox = s.inbox := rfl
@[simp] theorem State.drew_cfg (s : State) : s.drew.cfg = s.cfg := rfl
@[simp] theorem State.drew_events (s : State) : s.drew.events = s.events := rfl
@[simp] theorem State.drew_trace (s : State) : s.drew.trace = s.trace := rfl
@[simp] theorem State.drew_draws (s : State) : s.drew.draws = s.draws + 1 := rfl

/-! ## clkLow -/

@[simp] theorem clkLow_mode (s : State) : (clkLow s).mode = s.mode := rfl
@[simp] theorem clkLow_rxPos (s : State) : (clkLow s).rxPos = s.rxPos := rfl
@[simp] theorem clkLow_rxAcc (s : State) : (clkLow s).rxAcc = s.rxAcc := rfl
@[simp] theorem clkLow_txFrame (s : State) : (clkLow s).txFrame = s.txFrame := rfl
@[simp] theorem clkLow_txPos (s : State) : (clkLow s).txPos = s.txPos := rfl
@[simp] theorem clkLow_txOutcome (s : State) : (clkLow s).txOutcome = s.txOutcome := rfl
@[simp] theorem clkLow_gate (s : State) : (clkLow s).gate = s.gate := rfl
@[simp] theorem clkLow_clkDrv (s : State) : (clkLow s).clkDrv = .low := rfl
@[simp] theorem clkLow_dataDrv (s : State) : (clkLow s).dataDrv = s.dataDrv := rfl
@[simp] theorem clkLow_callback (s : State) : (clkLow s).callback = s.callback := rfl
@[simp] theorem clkLow_cbEnabled (s : State) : (clkLow s).cbEnabled = s.cbEnabled := rfl
@[simp] theorem clkLow_inbox (s : State) : (clkLow s).inbox = s.inbox := rfl
@[simp] theorem clkLow_cfg (s : State) : (clkLow s).cfg = s.cfg := rfl
@[simp] theorem clkLow_events (s : State) : (clkLow s).events = s.events := rfl
@[simp] theorem clkLow_trace (s : State) : (clkLow s).trace = s.trace ++ [.line .clkLow] := rfl
@[simp] theorem clkLow_draws (s : State) : (clkLow s).draws = s.draws := rfl

/-! ## hold -/

@[simp] theorem hold_mode (s : State) : (hold s).mode = s.mode := rfl
@[simp] theorem hold_rxPos (s : State) : (hold s).rxPos = s.rxPos := rfl
@[simp] theorem hold_rxAcc (s : State) : (hold s).rxAcc = s.rxAcc := rfl
@[simp] theorem hold_txFrame (s : State) : (hold s).txFrame = s.txFrame := rfl
@[simp] theorem hold_txPos (s : State) : (hold s).txPos = s.txPos := rfl
@[simp] theorem hold_txOutcome (s : State) : (hold s).txOutcome = s.txOutcome := rfl
@[simp] theorem hold_gate (s : State) : (hold s).gate = s.gate := rfl
@[simp] theorem hold_clkDrv (s : State) : (hold s).clkDrv = s.clkDrv := rfl
@[simp] theorem hold_dataDrv (s : State) : (hold s).dataDrv = s.dataDrv := rfl
@[simp] theorem hold_callback (s : State) : (hold s).callback = s.callback := rfl
@[simp] theorem hold_cbEnabled (s : State) : (hold s).cbEnabled = s.cbEnabled := rfl
@[simp] theorem hold_inbox (s : State) : (hold s).inbox = s.inbox := rfl
@[simp] theorem hold_cfg (s : State) : (hold s).cfg = s.cfg := rfl
@[simp] theorem hold_events (s : State) : (hold s).events = s.events := rfl
@[simp] theorem hold_trace (s : State) : (hold s).trace = s.trace ++ [.line (.hold s.cfg.tInhibitUs)] := rfl
@[simp] theorem hold_draws (s : State) : (hold s).draws = s.draws := rfl

/-! ## dataSet -/

@[simp] theorem dataSet_mode (b : Bit) (s : State) : (dataSet b s).mode = s.mode := rfl
@[simp] theorem dataSet_rxPos (b : Bit) (s : State) : (dataSet b s).rxPos = s.rxPos := rfl
@[simp] theorem dataSet_rxAcc (b : Bit) (s : State) : (dataSet b s).rxAcc = s.rxAcc := rfl
@[simp] theorem dataSet_txFrame (b : Bit) (s : State) : (dataSet b s).txFrame = s.txFrame := rfl
@[simp] theorem dataSet_txPos (b : Bit) (s : State) : (dataSet b s).txPos = s.txPos := rfl
@[simp] theorem dataSet_txOutcome (b : Bit) (s : State) : (dataSet b s).txOutcome = s.txOutcome := rfl
@[simp] theorem dataSet_gate (b : Bit) (s : State) : (dataSet b s).gate = s.gate := rfl
@[simp] theorem dataSet_clkDrv (b : Bit) (s : State) : (dataSet b s).clkDrv = s.clkDrv := rfl
@[simp] theorem dataSet_dataDrv (b : Bit) (s : State) : (dataSet b s).dataDrv = driveOf b := rfl
@[simp] theorem dataSet_callback (b : Bit) (s : State) : (dataSet b s).callback = s.callback := rfl
@[simp] theorem dataSet_cbEnabled (b : Bit) (s : State) : (dataSet b s).cbEnabled = s.cbEnabled := rfl
@[simp] theorem dataSet_inbox (b : Bit) (s : State) : (dataSet b s).inbox = s.inbox := rfl
@[simp] theorem dataSet_cfg (b : Bit) (s : State) : (dataSet b s).cfg = s.cfg := rfl
@[simp] theorem dataSet_events (b : Bit) (s : State) : (dataSet b s).events = s.events := rfl
@[simp] theorem dataSet_trace (b : Bit) (s : State) : (dataSet b s).trace = s.trace ++ [.line (.dataSet b)] := rfl
@[simp] theorem dataSet_draws (b : Bit) (s : State) : (dataSet b s).draws = s.draws := rfl

/-! ## dataRelease -/

@[simp] theorem dataRelease_mode (s : State) : (dataRelease s).mode = s.mode := rfl
@[simp] theorem dataRelease_rxPos (s : State) : (dataRelease s).rxPos = s.rxPos := rfl
@[simp] theorem dataRelease_rxAcc (s : State) : (dataRelease s).rxAcc = s.rxAcc := rfl
@[simp] theorem dataRelease_txFrame (s : State) : (dataRelease s).txFrame = s.txFrame := rfl
@[simp] theorem dataRelease_txPos (s : State) : (dataRelease s).txPos = s.txPos := rfl
@[simp] theorem dataRelease_txOutcome (s : State) : (dataRelease s).txOutcome = s.txOutcome := rfl
@[simp] theorem dataRelease_gate (s : State) : (dataRelease s).gate = s.gate := rfl
@[simp] theorem dataRelease_clkDrv (s : State) : (dataRelease s).clkDrv = s.clkDrv := rfl
@[simp] theorem dataRelease_dataDrv (s : State) : (dataRelease s).dataDrv = .released := rfl
@[simp] theorem dataRelease_callback (s : State) : (dataRelease s).callback = s.callback := rfl
@[simp] theorem dataRelease_cbEnabled (s : State) : (dataRelease s).cbEnabled = s.cbEnabled := rfl
@[simp] theorem dataRelease_inbox (s : State) : (dataRelease s).inbox = s.inbox := rfl
@[simp] theorem dataRelease_cfg (s : State) : (dataRelease s).cfg = s.cfg := rfl
@[simp] theorem dataRelease_events (s : State) : (dataRelease s).events = s.events := rfl
@[simp] theorem dataRelease_trace (s : State) : (dataRelease s).trace = s.trace ++ [.line .dataRelease] := rfl
@[simp] theorem dataRelease_draws (s : State) : (dataRelease s).draws = s.draws := rfl

/-! ## clkRelease -/

@[simp] theorem clkRelease_mode (s : State) : (clkRelease s).mode = s.mode := rfl
@[simp] theorem clkRelease_rxPos (s : State) : (clkRelease s).rxPos = s.rxPos := rfl
@[simp] theorem clkRelease_rxAcc (s : State) : (clkRelease s).rxAcc = s.rxAcc := rfl
@[simp] theorem clkRelease_txFrame (s : State) : (clkRelease s).txFrame = s.txFrame := rfl
@[simp] theorem clkRelease_txPos (s : State) : (clkRelease s).txPos = s.txPos := rfl
@[simp] theorem clkRelease_txOutcome (s : State) : (clkRelease s).txOutcome = s.txOutcome := rfl
@[simp] theorem clkRelease_gate (s : State) : (clkRelease s).gate = s.gate := rfl
@[simp] theorem clkRelease_clkDrv (s : State) : (clkRelease s).clkDrv = .released := rfl
@[simp] theorem clkRelease_dataDrv (s : State) : (clkRelease s).dataDrv = s.dataDrv := rfl
@[simp] theorem clkRelease_callback (s : State) : (clkRelease s).callback = s.callback := rfl
@[simp] theorem clkRelease_cbEnabled (s : State) : (clkRelease s).cbEnabled = s.cbEnabled := rfl
@[simp] theorem clkRelease_inbox (s : State) : (clkRelease s).inbox = s.inbox := rfl
@[simp] theorem clkRelease_cfg (s : State) : (clkRelease s).cfg = s.cfg := rfl
@[simp] theorem clkRelease_events (s : State) : (clkRelease s).events = s.events := rfl
@[simp] theorem clkRelease_trace (s : State) : (clkRelease s).trace = s.trace ++ [.line .clkRelease] := rfl
@[simp] theorem clkRelease_draws (s : State) : (clkRelease s).draws = s.draws := rfl

/-! ## clearRx -/

@[simp] theorem clearRx_mode (s : State) : (clearRx s).mode = s.mode := rfl
@[simp] theorem clearRx_rxPos (s : State) : (clearRx s).rxPos = 0 := rfl
@[simp] theorem clearRx_rxAcc (s : State) : (clearRx s).rxAcc = 0x00#8 := rfl
@[simp] theorem clearRx_txFrame (s : State) : (clearRx s).txFrame = s.txFrame := rfl
@[simp] theorem clearRx_txPos (s : State) : (clearRx s).txPos = s.txPos := rfl
@[simp] theorem clearRx_txOutcome (s : State) : (clearRx s).txOutcome = s.txOutcome := rfl
@[simp] theorem clearRx_gate (s : State) : (clearRx s).gate = s.gate := rfl
@[simp] theorem clearRx_clkDrv (s : State) : (clearRx s).clkDrv = s.clkDrv := rfl
@[simp] theorem clearRx_dataDrv (s : State) : (clearRx s).dataDrv = s.dataDrv := rfl
@[simp] theorem clearRx_callback (s : State) : (clearRx s).callback = s.callback := rfl
@[simp] theorem clearRx_cbEnabled (s : State) : (clearRx s).cbEnabled = s.cbEnabled := rfl
@[simp] theorem clearRx_inbox (s : State) : (clearRx s).inbox = s.inbox := rfl
@[simp] theorem clearRx_cfg (s : State) : (clearRx s).cfg = s.cfg := rfl
@[simp] theorem clearRx_events (s : State) : (clearRx s).events = s.events := rfl
@[simp] theorem clearRx_trace (s : State) : (clearRx s).trace = s.trace := rfl
@[simp] theorem clearRx_draws (s : State) : (clearRx s).draws = s.draws := rfl

/-! ## loadWrite -/

@[simp] theorem loadWrite_mode (b : Byte) (s : State) : (loadWrite b s).mode = .write := rfl
@[simp] theorem loadWrite_rxPos (b : Byte) (s : State) : (loadWrite b s).rxPos = s.rxPos := rfl
@[simp] theorem loadWrite_rxAcc (b : Byte) (s : State) : (loadWrite b s).rxAcc = s.rxAcc := rfl
@[simp] theorem loadWrite_txFrame (b : Byte) (s : State) : (loadWrite b s).txFrame = mkFrame b := rfl
@[simp] theorem loadWrite_txPos (b : Byte) (s : State) : (loadWrite b s).txPos = 0 := rfl
@[simp] theorem loadWrite_txOutcome (b : Byte) (s : State) : (loadWrite b s).txOutcome = .active := rfl
@[simp] theorem loadWrite_gate (b : Byte) (s : State) : (loadWrite b s).gate = s.gate := rfl
@[simp] theorem loadWrite_clkDrv (b : Byte) (s : State) : (loadWrite b s).clkDrv = s.clkDrv := rfl
@[simp] theorem loadWrite_dataDrv (b : Byte) (s : State) : (loadWrite b s).dataDrv = s.dataDrv := rfl
@[simp] theorem loadWrite_callback (b : Byte) (s : State) : (loadWrite b s).callback = s.callback := rfl
@[simp] theorem loadWrite_cbEnabled (b : Byte) (s : State) : (loadWrite b s).cbEnabled = s.cbEnabled := rfl
@[simp] theorem loadWrite_inbox (b : Byte) (s : State) : (loadWrite b s).inbox = s.inbox := rfl
@[simp] theorem loadWrite_cfg (b : Byte) (s : State) : (loadWrite b s).cfg = s.cfg := rfl
@[simp] theorem loadWrite_events (b : Byte) (s : State) : (loadWrite b s).events = s.events := rfl
@[simp] theorem loadWrite_trace (b : Byte) (s : State) : (loadWrite b s).trace = s.trace := rfl
@[simp] theorem loadWrite_draws (b : Byte) (s : State) : (loadWrite b s).draws = s.draws := rfl

/-! ## failInitiation -/

@[simp] theorem failInitiation_mode (s : State) : (failInitiation s).mode = .read := rfl
@[simp] theorem failInitiation_rxPos (s : State) : (failInitiation s).rxPos = s.rxPos := rfl
@[simp] theorem failInitiation_rxAcc (s : State) : (failInitiation s).rxAcc = s.rxAcc := rfl
@[simp] theorem failInitiation_txFrame (s : State) : (failInitiation s).txFrame = s.txFrame := rfl
@[simp] theorem failInitiation_txPos (s : State) : (failInitiation s).txPos = 0 := rfl
@[simp] theorem failInitiation_txOutcome (s : State) : (failInitiation s).txOutcome = .inactive := rfl
@[simp] theorem failInitiation_gate (s : State) : (failInitiation s).gate = s.gate := rfl
@[simp] theorem failInitiation_clkDrv (s : State) : (failInitiation s).clkDrv = Config.freeClkDrv s.draws := rfl
@[simp] theorem failInitiation_dataDrv (s : State) : (failInitiation s).dataDrv = Config.freeDataDrv s.draws := rfl
@[simp] theorem failInitiation_callback (s : State) : (failInitiation s).callback = s.callback := rfl
@[simp] theorem failInitiation_cbEnabled (s : State) : (failInitiation s).cbEnabled = s.cbEnabled := rfl
@[simp] theorem failInitiation_inbox (s : State) : (failInitiation s).inbox = s.inbox := rfl
@[simp] theorem failInitiation_cfg (s : State) : (failInitiation s).cfg = s.cfg := rfl
@[simp] theorem failInitiation_events (s : State) : (failInitiation s).events = s.events := rfl
@[simp] theorem failInitiation_trace (s : State) : (failInitiation s).trace = s.trace := rfl
@[simp] theorem failInitiation_draws (s : State) : (failInitiation s).draws = s.draws + 1 := rfl

/-! ## finishWrite -/

@[simp] theorem finishWrite_mode (d : Bit) (s : State) : (finishWrite d s).mode = .read := rfl
@[simp] theorem finishWrite_rxPos (d : Bit) (s : State) : (finishWrite d s).rxPos = s.rxPos := rfl
@[simp] theorem finishWrite_rxAcc (d : Bit) (s : State) : (finishWrite d s).rxAcc = s.rxAcc := rfl
@[simp] theorem finishWrite_txFrame (d : Bit) (s : State) : (finishWrite d s).txFrame = s.txFrame := rfl
@[simp] theorem finishWrite_txPos (d : Bit) (s : State) : (finishWrite d s).txPos = 0 := rfl
@[simp] theorem finishWrite_txOutcome (d : Bit) (s : State) : (finishWrite d s).txOutcome = ackOutcome d := rfl
@[simp] theorem finishWrite_gate (d : Bit) (s : State) : (finishWrite d s).gate = .available := rfl
@[simp] theorem finishWrite_clkDrv (d : Bit) (s : State) : (finishWrite d s).clkDrv = s.clkDrv := rfl
@[simp] theorem finishWrite_dataDrv (d : Bit) (s : State) : (finishWrite d s).dataDrv = s.dataDrv := rfl
@[simp] theorem finishWrite_callback (d : Bit) (s : State) : (finishWrite d s).callback = s.callback := rfl
@[simp] theorem finishWrite_cbEnabled (d : Bit) (s : State) : (finishWrite d s).cbEnabled = s.cbEnabled := rfl
@[simp] theorem finishWrite_inbox (d : Bit) (s : State) : (finishWrite d s).inbox = s.inbox := rfl
@[simp] theorem finishWrite_cfg (d : Bit) (s : State) : (finishWrite d s).cfg = s.cfg := rfl
@[simp] theorem finishWrite_events (d : Bit) (s : State) : (finishWrite d s).events = s.events := rfl
@[simp] theorem finishWrite_trace (d : Bit) (s : State) : (finishWrite d s).trace = s.trace := rfl
@[simp] theorem finishWrite_draws (d : Bit) (s : State) : (finishWrite d s).draws = s.draws := rfl

end Sys2Proof.Machine
end

