-- ==== Sys2Proof/Laws/Ops.lean ====
section
/-!
SUPPORT. What each shared operation can do, said once.
-/

namespace Sys2Proof.Machine

@[simp] theorem andThen_next (s : State) (f : State → Result) : andThen (.next s) f = f s := rfl
@[simp] theorem andThen_fault (e : Fault) (f : State → Result) : andThen (.fault e) f = .fault e := rfl
@[simp] theorem andThen_refused (e : Refusal) (f : State → Result) : andThen (.refused e) f = .refused e := rfl

/-- A sequence that goes on went on at each part. -/
theorem andThen_eq_next {r : Result} {f : State → Result} {t : State} (h : andThen r f = .next t) :
    ∃ s, r = .next s ∧ f s = .next t := by
  cases r with
  | next s => exact ⟨s, rfl, h⟩
  | fault e => cases h
  | refused e => cases h

theorem andThen_assoc (r : Result) (f g : State → Result) :
    andThen (andThen r f) g = andThen r (fun s => andThen (f s) g) := by cases r <;> rfl

/-- The live position in READ mode. -/
theorem livePos_read {s : State} (h : s.mode = .read) : livePos s = s.rxPos := by simp [livePos, h]

/-- The live position in WRITE mode. -/
theorem livePos_write {s : State} (h : s.mode = .write) : livePos s = s.txPos := by simp [livePos, h]

/-- On a line the host does not hold low the peripheral's level is seen. -/
theorem sampleData_of_ne_low {s : State} (h : s.dataDrv ≠ .low) (d : Bit) : sampleData s d = d := by
  unfold sampleData; split <;> simp_all

/-- On a line the host holds low the level is 0 (R54). -/
theorem sampleData_of_low {s : State} (h : s.dataDrv = .low) (d : Bit) : sampleData s d = 0#1 := by
  simp [sampleData, h]

/-- Try-acquire on a taken gate. -/
theorem tryAcquire_taken {s : State} (h : s.gate = .taken) : tryAcquire s = none := by simp [tryAcquire, h]

/-- Try-acquire on an available gate. -/
theorem tryAcquire_available {s : State} (h : s.gate = .available) : tryAcquire s = some s.takeGate := by
  simp [tryAcquire, h]

/-- The parameter off, no step of an initiation fails. -/
theorem effectiveFault_off {s : State} (h : s.cfg.lineCfgCanFail = false) (k : LineFault) :
    effectiveFault s k = .none := by simp [effectiveFault, h]

/-- Everything an initiation can do: busy, started, or failed at one of three steps. -/
theorem initiate_cases (b : Byte) (k : LineFault) (s : State) :
    (s.gate = .taken ∧ initiate b k s = (s, .eBusy)) ∨
    (s.gate = .available ∧ initiate b k s = runInitiation b (effectiveFault s k) s.takeGate) := by
  cases h : s.gate with
  | taken => exact .inl ⟨rfl, by simp [initiate, tryAcquire_taken h]⟩
  | available => exact .inr ⟨rfl, by simp only [initiate, tryAcquire_available h]; rfl⟩

/-- An initiation whose line actions succeed. -/
theorem initiate_ok {s : State} (hg : s.gate = .available) {k : LineFault} (hk : effectiveFault s k = .none) (b : Byte) :
    initiate b k s =
      (clkRelease (advanceToFirstBit (startBitStep (inhibit (loadWrite b s.takeGate)))), .ok) := by
  obtain ⟨h, -⟩ | ⟨-, h⟩ := initiate_cases b k s
  · simp [hg] at h
  · rw [h, hk]; rfl

/-- A busy initiation changes nothing. -/
theorem initiate_busy {s : State} (hg : s.gate = .taken) (b : Byte) (k : LineFault) :
    initiate b k s = (s, .eBusy) := by simp [initiate, tryAcquire_taken hg]

/-- Everything a delivery can do. -/
theorem deliver_cases (b : Byte) (s : State) :
    (∃ f, s.cbEnabled = true ∧ s.callback = some f ∧
      deliver b s = .next (s.emit (.delivered (.callback f) b))) ∨
    ((s.cbEnabled = false ∨ s.callback = none) ∧ deliver b s = appendInbox b s) := by
  cases he : s.cbEnabled with
  | false => exact .inr ⟨.inl rfl, by simp [deliver, he]⟩
  | true =>
    cases hc : s.callback with
    | none => exact .inr ⟨.inr rfl, by simp [deliver, he, hc]⟩
    | some f => exact .inl ⟨f, rfl, rfl, by simp [deliver, he, hc]⟩

/-- An append to an inbox with room. -/
theorem appendInbox_room {s : State} (h : inboxIsFull s = false) (b : Byte) :
    appendInbox b s = .next (State.emit { s with inbox := s.inbox ++ [b] } (.delivered .inbox b)) := by
  simp [appendInbox, h]

/-- An armed edge runs the operation the state selects, once. -/
theorem edge_armed {s : State} (h : s.clkDrv = .released) (d : Bit) (k : LineFault) :
    edge d k s = runEdgeOp (selectEdge s) (sampleData s d) k s := by simp [edge, edgeArmed, h]

/-- An edge while the interrupt is not armed does nothing. -/
theorem edge_disarmed {s : State} (h : s.clkDrv = .low) (d : Bit) (k : LineFault) : edge d k s = .next s := by
  simp [edge, edgeArmed, h]

/-- A run of edges is one edge and then the rest. -/
theorem edges_cons (d : Bit) (ds : List Bit) (s : State) : edges (d :: ds) s = andThen (edge d .none s) (edges ds) := rfl

/-- A run of edges in two parts. -/
theorem edges_append (ds es : List Bit) (s : State) : edges (ds ++ es) s = andThen (edges ds s) (edges es) := by
  induction ds generalizing s with
  | nil => rfl
  | cons d ds ih =>
    rw [List.cons_append, edges_cons, edges_cons, andThen_assoc]
    congr 1; funext t; exact ih t

end Sys2Proof.Machine
end

