-- ==== Sys2Proof/Laws/Step.lean ====
section
/-!
SUPPORT. What one step can do, and that the edge dispatcher and the selected operation agree.
-/

namespace Sys2Proof.Machine

/-- With no event pending the block waits. -/
theorem step_nil {s : State} (h : s.events = []) : step s = .next s := by simp [step, h]

/-- With an event pending the operation it selects is run. -/
theorem step_cons {s : State} {e : Event} {es : List Event} (h : s.events = e :: es) {i : Instr}
    (hi : selectOp s e = some i) : step s = exec i s.popEvent := by simp [step, h, hi]

/-- Everything a step that goes on can be. -/
theorem step_cases {s t : State} (h : step s = .next t) :
    (s.events = [] ∧ t = s) ∨
    ∃ e es, s.events = e :: es ∧
      ((selectOp s e = none ∧ t = s.popEvent) ∨ ∃ i, selectOp s e = some i ∧ exec i s.popEvent = .next t) := by
  cases he : s.events with
  | nil =>
    rw [step_nil he] at h
    exact .inl ⟨rfl, (Host.Outcome.next.inj h).symm⟩
  | cons e es =>
    refine .inr ⟨e, es, rfl, ?_⟩
    cases hs : selectOp s e with
    | none => exact .inl ⟨rfl, by simpa [step, he, hs] using h.symm⟩
    | some i => exact .inr ⟨i, rfl, by rw [← step_cons he hs]; exact h⟩

/-- The edge dispatcher runs the meaning of the operation it selects. -/
theorem runEdgeOp_eq_exec (o : EdgeOp) (d : Bit) (k : LineFault) (s : State) :
    runEdgeOp o d k s = exec (o.toInstr d k) s := by cases o <;> rfl

/-- Selection does not look at the pending events. -/
theorem selectEdge_popEvent (s : State) : selectEdge s.popEvent = selectEdge s := rfl

end Sys2Proof.Machine
end

