-- ==== Sys2Proof/Laws/Edge.lean ====
section
/-!
SUPPORT. Everything an initiation, a delivery and an edge can do, and how a property of edges passes to runs of edges and to
the events that issue them.
-/

namespace Sys2Proof.Machine

/-- No step fails if the parameter is off or the environment names none. -/
theorem effectiveFault_none {s : State} {k} (h : s.cfg.lineCfgCanFail = false ∨ k = .none) : effectiveFault s k = .none := by
  obtain h | rfl := h <;> simp [effectiveFault, *]

/-- An initiation that takes the gate and whose line actions succeed: the fields of R141, the actions of R143. -/
theorem initiate_started (b : Byte) {s : State} {k} (hg : s.gate = .available) (hk : effectiveFault s k = .none) :
   initiate b k s = ({ writeStarted b s with trace := s.trace ++ initiationActions s }, .ok) := by
  rw [initiate_ok hg hk]
  simp [writeStarted, initiationActions, clkRelease, advanceToFirstBit, startBitStep, inhibit, hold, clkLow, dataSet, State.emit, clearRx, loadWrite, State.takeGate, driveOf]

/-- An inbox with room is not full. -/
theorem inboxIsFull_of_room {s : State} (h : ∀ n, s.cfg.inboxCapacity = some n → s.inbox.length < n) : inboxIsFull s = false := by
  unfold inboxIsFull; split
  · rfl
  · rename_i n hn; have := h n hn; simp; omega

/-- A delivery that goes on gives one output, and appends to the inbox or leaves it. -/
theorem deliver_next {b} {s t : State} (h : deliver b s = .next t) : (∃ o, t = s.emit o) ∨ ∃ o, t = State.emit { s with inbox := s.inbox ++ [b] } o := by
  obtain ⟨f, -, -, hh⟩ | ⟨-, hh⟩ := deliver_cases b s
  · rw [hh] at h; cases h; exact .inl ⟨_, rfl⟩
  · rw [hh, appendInbox] at h; split at h
    · cases h
    · cases h; exact .inr ⟨_, rfl⟩

/-- What the dispatch table selects, by mode and position. -/
theorem edgeOpOf_cases (m : Mode) (p : Nat) :
    (∃ q, edgeOpOf m p = .illegal m q) ∨
    (m = .read ∧ (p = 0 ∧ edgeOpOf m p = .rxStart ∨ (1 ≤ p ∧ p ≤ 8) ∧ edgeOpOf m p = .rxData p ∨
      p = 9 ∧ edgeOpOf m p = .rxParity ∨ p = 10 ∧ edgeOpOf m p = .rxStop)) ∨
    (m = .write ∧ (p = 0 ∧ edgeOpOf m p = .txIgnore ∨ (1 ≤ p ∧ p ≤ 9) ∧ edgeOpOf m p = .txBit p ∨
      p = 10 ∧ edgeOpOf m p = .txStop ∨ p = 11 ∧ edgeOpOf m p = .txAck)) := by
  cases m with
  | read =>
    unfold edgeOpOf; dsimp only
    split
    · exact .inr (.inl ⟨rfl, .inl ⟨‹_›, rfl⟩⟩)
    split
    · exact .inr (.inl ⟨rfl, .inr (.inl ⟨⟨by omega, ‹_›⟩, rfl⟩)⟩)
    split
    · exact .inr (.inl ⟨rfl, .inr (.inr (.inl ⟨‹_›, rfl⟩))⟩)
    split
    · exact .inr (.inl ⟨rfl, .inr (.inr (.inr ⟨‹_›, rfl⟩))⟩)
    · exact .inl ⟨_, rfl⟩
  | write =>
    unfold edgeOpOf; dsimp only
    split
    · exact .inr (.inr ⟨rfl, .inl ⟨‹_›, rfl⟩⟩)
    split
    · exact .inr (.inr ⟨rfl, .inr (.inl ⟨⟨by omega, ‹_›⟩, rfl⟩)⟩)
    split
    · exact .inr (.inr ⟨rfl, .inr (.inr (.inl ⟨‹_›, rfl⟩))⟩)
    split
    · exact .inr (.inr ⟨rfl, .inr (.inr (.inr ⟨‹_›, rfl⟩))⟩)
    · exact .inl ⟨_, rfl⟩

/-- Everything an edge that goes on can do. -/
theorem edge_cases {d k} {s t : State} (h : edge d k s = .next t) :
   (s.clkDrv = .low ∧ t = s) ∨
   (s.clkDrv = .released ∧ s.mode = .read ∧ (
      (s.rxPos = 0 ∧ t = { s with rxPos := 1 }) ∨
      (1 ≤ s.rxPos ∧ s.rxPos ≤ 8 ∧ t = { s with rxAcc := setBit s.rxAcc (s.rxPos - 1) (sampleData s d), rxPos := s.rxPos + 1 }) ∨
      (s.rxPos = 9 ∧ t = { s with rxPos := 10 }) ∨
      (∃ o, t = clearRx (s.emit o)) ∨
      (∃ b o, t = clearRx (State.emit { s with inbox := s.inbox ++ [b] } o)) ∨
      (∃ e, t = abortRead e k s))) ∨
   (s.clkDrv = .released ∧ s.mode = .write ∧ (
      (s.txPos = 0 ∧ t = s) ∨
      (1 ≤ s.txPos ∧ s.txPos ≤ 9 ∧ t = { sendBit s.txPos s with txPos := s.txPos + 1 }) ∨
      (s.txPos = 10 ∧ t = { dataRelease (sendBit 10 s) with txPos := 11 }) ∨
      (s.txPos = 11 ∧ t = finishWrite (sampleData s d) s))) := by
  have hcc : s.clkDrv = .low ∨ s.clkDrv = .released := by cases s.clkDrv <;> simp
  have hmm : s.mode = .read ∨ s.mode = .write := by cases s.mode <;> simp
  obtain hc | hc := hcc
  · rw [edge_disarmed hc] at h; cases h; exact .inl ⟨hc, rfl⟩
  · right
    rw [edge_armed hc] at h
    obtain hm | hm := hmm
    · left; refine ⟨hc, hm, ?_⟩
      rw [selectEdge, livePos_read hm, hm] at h
      obtain ⟨q, hq⟩ | ⟨-, ⟨hp, hq⟩ | ⟨⟨h1, h2⟩, hq⟩ | ⟨hp, hq⟩ | ⟨hp, hq⟩⟩ | ⟨hq, -⟩ := edgeOpOf_cases .read s.rxPos
      · rw [hq] at h; cases h
      · rw [hq] at h; simp only [runEdgeOp, execRxStart] at h; split at h <;> cases h
        · exact .inl ⟨hp, by simp⟩
        · exact .inr (.inr (.inr (.inr (.inr ⟨_, rfl⟩))))
      · rw [hq] at h; simp only [runEdgeOp, execRxData] at h; split at h <;> cases h
        exact .inr (.inl ⟨h1, h2, by rw [Config.storePos_of_lt _ (by omega)]⟩)
      · rw [hq] at h; simp only [runEdgeOp, execRxParity] at h; split at h <;> cases h
        · exact .inr (.inr (.inl ⟨hp, by simp⟩))
        · exact .inr (.inr (.inr (.inr (.inr ⟨_, rfl⟩))))
      · rw [hq] at h; simp only [runEdgeOp, execRxStop] at h; split at h
        · obtain ⟨u, h1, h2⟩ := andThen_eq_next h
          cases h2
          obtain ⟨o, rfl⟩ | ⟨o, rfl⟩ := deliver_next h1
          · exact .inr (.inr (.inr (.inl ⟨_, rfl⟩)))
          · exact .inr (.inr (.inr (.inr (.inl ⟨_, _, rfl⟩))))
        · cases h; exact .inr (.inr (.inr (.inr (.inr ⟨_, rfl⟩))))
      · cases hq
    · right; refine ⟨hc, hm, ?_⟩
      rw [selectEdge, livePos_write hm, hm] at h
      obtain ⟨q, hq⟩ | ⟨hq, -⟩ | ⟨-, ⟨hp, hq⟩ | ⟨⟨h1, h2⟩, hq⟩ | ⟨hp, hq⟩ | ⟨hp, hq⟩⟩ := edgeOpOf_cases .write s.txPos
      · rw [hq] at h; cases h
      · cases hq
      · rw [hq] at h; cases h; exact .inl ⟨hp, rfl⟩
      · rw [hq] at h; simp only [runEdgeOp, execTxBit] at h; split at h <;> cases h
        exact .inr (.inl ⟨h1, h2, by rw [Config.storePos_of_lt _ (by omega)]⟩)
      · rw [hq] at h; cases h; exact .inr (.inr (.inl ⟨hp, by simp⟩))
      · rw [hq] at h; cases h; exact .inr (.inr (.inr ⟨hp, rfl⟩))

/-- An armed edge in READ mode on a line the host does not hold low. -/
theorem edge_read {s : State} (hm : s.mode = .read) (hc : s.clkDrv = .released) (hd : s.dataDrv ≠ .low) (d : Bit) (k : LineFault) :
   edge d k s = runEdgeOp (edgeOpOf .read s.rxPos) d k s := by
  rw [edge_armed hc, sampleData_of_ne_low hd, selectEdge, livePos_read hm, hm]

/-- An armed edge in WRITE mode. -/
theorem edge_write {s : State} (hm : s.mode = .write) (hc : s.clkDrv = .released) (d : Bit) (k : LineFault) :
   edge d k s = runEdgeOp (edgeOpOf .write s.txPos) (sampleData s d) k s := by
  rw [edge_armed hc, selectEdge, livePos_write hm, hm]

/-- A property every edge keeps is kept by a run of edges. -/
theorem edges_keep {P : State → Prop} (he : ∀ d s t, P s → edge d .none s = .next t → P t) :
    ∀ ds s t, P s → edges ds s = .next t → P t := by
  intro ds
  induction ds with
  | nil => intro s t hp h; cases h; exact hp
  | cons d ds ih =>
    intro s t hp h
    obtain ⟨u, h1, h2⟩ := andThen_eq_next h
    exact ih _ _ (he _ _ _ hp h1) h2

/-- An edge put before the pending events is run by the next step. -/
theorem step_push_edge (s : State) (d : Bit) : step (s.pushEvent (.edge 0#1 d .none)) = edge d .none s := by
  have hp : (s.pushEvent (.edge 0#1 d .none)).popEvent = s := rfl
  cases hc : s.clkDrv with
  | low =>
    rw [edge_disarmed hc]
    have : selectOp (s.pushEvent (.edge 0#1 d .none)) (.edge 0#1 d .none) = none := by simp [selectOp, edgeArmed, hc]
    simp only [step, State.pushEvent_events, this, hp]
  | released =>
    rw [edge_armed hc, runEdgeOp_eq_exec, step_cons (e := .edge 0#1 d .none) (es := s.events) rfl (i := (selectEdge s).toInstr (sampleData s d) .none), hp]
    simp [selectOp, edgeArmed, hc, State.pushEvent, selectEdge, livePos, sampleData]

/-- Edges as events, or as a run of edges: the same. -/
theorem runEvents_rxBits (ds : List Bit) (s : State) : runEvents (rxBits ds) s = edges ds s := by
  induction ds generalizing s with
  | nil => rfl
  | cons d ds ih =>
    show andThen (step _) _ = _
    rw [step_push_edge, edges_cons]; congr 1; funext t; exact ih t

end Sys2Proof.Machine
end

