-- ==== Sys2Proof/Laws/PerInstr.lean ====
section
/-!
SUPPORT. A family of statements about every operation as syntax: its word has the format of its table row, and in format K8
the event code of R89.
-/

namespace Sys2Proof.Laws.EventCode

/-- The format and the event code R89 and R97 give an operation. -/
def expected : Instr → Format × BitVec 3
  | .rxStart _ _ | .rxData _ _ | .rxParity _ _ | .rxStop _ _ | .illegal _ _ => (.k8, 0#3)
  | .txIgnore | .txBit _ | .txStop | .txAck _ => (.k8, 0#3)
  | .txStart _ _ => (.k8, 1#3)
  | .txCollect => (.k8, 2#3)
  | .txGiveup => (.k8, 3#3)
  | .reset => (.k8, 4#3)
  | .configure _ | .read | .enableCb | .disableCb => (.k8, 5#3)
  | .parity _ | .chkpar _ _ | .mkframe _ => (.k8, 7#3)
  | .frame11 _ _ => (.f11, 0#3)
  | .exchange12 _ _ => (.f12, 0#3)

/-- The word's format is the row's, and a K8 word's event code is the event's. -/
def Statement (i : Instr) : Prop :=
  (encode i).fmt = (expected i).1 ∧ ((encode i).fmt = .k8 → keyEv (encode i).b0 = (expected i).2)

/-- The event code of a key built from its fields. -/
theorem keyEv_keyOf (ev : BitVec 3) (m : Bit) (p : Nat) : keyEv (keyOf ev m p) = ev := by
  unfold keyOf; generalize BitVec.ofNat 4 p = q; revert ev m q; decide

/-- The event code of a key with a sub-code. -/
theorem keyEv_subKey (ev : BitVec 3) (sub : BitVec 5) : keyEv (subKey ev sub) = ev := by revert ev sub; decide

theorem rxStart (d : Bit) (k : LineFault) : Statement (.rxStart d k) := ⟨rfl, fun _ => keyEv_keyOf _ _ _⟩
theorem rxData (p : Nat) (d : Bit) : Statement (.rxData p d) := ⟨rfl, fun _ => keyEv_keyOf _ _ _⟩
theorem rxParity (d : Bit) (k : LineFault) : Statement (.rxParity d k) := ⟨rfl, fun _ => keyEv_keyOf _ _ _⟩
theorem rxStop (d : Bit) (k : LineFault) : Statement (.rxStop d k) := ⟨rfl, fun _ => keyEv_keyOf _ _ _⟩
theorem illegal (m : Mode) (p : Nat) : Statement (.illegal m p) := ⟨rfl, fun _ => keyEv_keyOf _ _ _⟩
theorem txIgnore : Statement .txIgnore := ⟨rfl, fun _ => keyEv_keyOf _ _ _⟩
theorem txBit (p : Nat) : Statement (.txBit p) := ⟨rfl, fun _ => keyEv_keyOf _ _ _⟩
theorem txStop : Statement .txStop := ⟨rfl, fun _ => keyEv_keyOf _ _ _⟩
theorem txAck (d : Bit) : Statement (.txAck d) := ⟨rfl, fun _ => keyEv_keyOf _ _ _⟩
theorem txStart (b : Byte) (k : LineFault) : Statement (.txStart b k) := ⟨rfl, fun _ => keyEv_subKey _ _⟩
theorem txCollect : Statement .txCollect := ⟨rfl, fun _ => keyEv_subKey _ _⟩
theorem txGiveup : Statement .txGiveup := ⟨rfl, fun _ => keyEv_subKey _ _⟩
theorem reset : Statement .reset := ⟨rfl, fun _ => keyEv_subKey _ _⟩
theorem configure (f : Option CallbackRef) : Statement (.configure f) := by cases f <;> exact ⟨rfl, fun _ => keyEv_subKey _ _⟩
theorem read : Statement .read := ⟨rfl, fun _ => keyEv_subKey _ _⟩
theorem enableCb : Statement .enableCb := ⟨rfl, fun _ => keyEv_subKey _ _⟩
theorem disableCb : Statement .disableCb := ⟨rfl, fun _ => keyEv_subKey _ _⟩
theorem parity (b : Byte) : Statement (.parity b) := ⟨rfl, fun _ => keyEv_subKey _ _⟩
theorem chkpar (b : Byte) (r : Bit) : Statement (.chkpar b r) := ⟨rfl, fun _ => keyEv_subKey _ _⟩
theorem mkframe (b : Byte) : Statement (.mkframe b) := ⟨rfl, fun _ => keyEv_subKey _ _⟩
theorem frame11 (p : Bit) (b : Byte) : Statement (.frame11 p b) := ⟨rfl, fun h => by cases h⟩
theorem exchange12 (a : Bit) (b : Byte) : Statement (.exchange12 a b) := ⟨rfl, fun h => by cases h⟩

end Sys2Proof.Laws.EventCode
end

