-- ==== Sys2Proof/Tests/Slice0.lean ====
section
/-!
SUPPORT. The model's own tests: the smoke test of WellFormed, one word written out bit by bit for each constructor, single
steps whose expected values are those of spec/95_test_vectors.md, and a witness for the hypotheses of each statement.
-/

namespace Sys2Proof.Tests

open Sys2Proof.Machine

/-! ## WellFormed: the terms at each bound, and the ill-formed ones beside them -/

theorem test_wf_rxData :
    (Instr.rxData 0 1#1).wf = false ∧ (Instr.rxData 1 1#1).wf = true ∧
    (Instr.rxData 8 1#1).wf = true ∧ (Instr.rxData 9 1#1).wf = false := by decide

theorem test_wf_txBit :
    (Instr.txBit 0).wf = false ∧ (Instr.txBit 1).wf = true ∧
    (Instr.txBit 9).wf = true ∧ (Instr.txBit 10).wf = false := by decide

theorem test_wf_illegal :
    (Instr.illegal .read 10).wf = false ∧ (Instr.illegal .read 11).wf = true ∧ (Instr.illegal .read 16).wf = false ∧
    (Instr.illegal .write 11).wf = false ∧ (Instr.illegal .write 12).wf = true ∧
    (Instr.illegal .write 16).wf = false := by decide

/-- R9: the counters have four bits by default, which hold 11 and wrap at 16. -/
theorem test_posWidth :
    Config.default.posWidth = 4 ∧ Config.default.storePos 11 = 11 ∧ Config.default.storePos 16 = 0 := by decide

/-! ## Decoding: words written out from R89's key {ev, m, pos}, R80 and R82 -/

/-- The operation a word decodes to, if any. -/
def decoded (w : OpWord) : Option Instr := (decode w).toOption

theorem test_decode_rxStart : decoded ⟨.k8, 0b00000000#8, 0b00001011#8, 0#8⟩ = some (.rxStart 1#1 .step5) := by decide
theorem test_decode_rxData : decoded ⟨.k8, 0b00001000#8, 0b00000011#8, 0#8⟩ = some (.rxData 8 1#1) := by decide
theorem test_decode_rxParity : decoded ⟨.k8, 0b00001001#8, 0b00000010#8, 0#8⟩ = some (.rxParity 0#1 .none) := by decide
theorem test_decode_rxStop : decoded ⟨.k8, 0b00001010#8, 0b00000111#8, 0#8⟩ = some (.rxStop 1#1 .step4) := by decide
theorem test_decode_illegal :
    decoded ⟨.k8, 0b00001111#8, 0#8, 0#8⟩ = some (.illegal .read 15) ∧
    decoded ⟨.k8, 0b00011100#8, 0#8, 0#8⟩ = some (.illegal .write 12) := by decide
theorem test_decode_txIgnore : decoded ⟨.k8, 0b00010000#8, 0#8, 0#8⟩ = some .txIgnore := by decide
theorem test_decode_txBit : decoded ⟨.k8, 0b00011001#8, 0#8, 0#8⟩ = some (.txBit 9) := by decide
theorem test_decode_txStop : decoded ⟨.k8, 0b00011010#8, 0#8, 0#8⟩ = some .txStop := by decide
theorem test_decode_txAck : decoded ⟨.k8, 0b00011011#8, 0b00000001#8, 0#8⟩ = some (.txAck 1#1) := by decide
theorem test_decode_txStart :
    decoded ⟨.k8, 0b00100000#8, 0b01011010#8, 0b00000011#8⟩ = some (.txStart 0x5A#8 .step7) := by decide
theorem test_decode_txCollect : decoded ⟨.k8, 0b01000000#8, 0#8, 0#8⟩ = some .txCollect := by decide
theorem test_decode_txGiveup : decoded ⟨.k8, 0b01100000#8, 0#8, 0#8⟩ = some .txGiveup := by decide
theorem test_decode_reset : decoded ⟨.k8, 0b10000000#8, 0#8, 0#8⟩ = some .reset := by decide
theorem test_decode_configure :
    decoded ⟨.k8, 0b10100000#8, 0#8, 7#8⟩ = some (.configure none) ∧
    decoded ⟨.k8, 0b10100000#8, 1#8, 7#8⟩ = some (.configure (some 7#8)) := by decide
theorem test_decode_read : decoded ⟨.k8, 0b10100001#8, 0#8, 0#8⟩ = some .read := by decide
theorem test_decode_enableCb : decoded ⟨.k8, 0b10100010#8, 0#8, 0#8⟩ = some .enableCb := by decide
theorem test_decode_disableCb : decoded ⟨.k8, 0b10100011#8, 0#8, 0#8⟩ = some .disableCb := by decide
theorem test_decode_parity : decoded ⟨.k8, 0b11100000#8, 0x41#8, 0#8⟩ = some (.parity 0x41#8) := by decide
theorem test_decode_chkpar : decoded ⟨.k8, 0b11100001#8, 0x41#8, 1#8⟩ = some (.chkpar 0x41#8 1#1) := by decide
theorem test_decode_mkframe : decoded ⟨.k8, 0b11100010#8, 0x41#8, 0#8⟩ = some (.mkframe 0x41#8) := by decide
/-- The frame of 0x43, `10010000110` (V-C1). -/
theorem test_decode_frame11 : decoded ⟨.f11, 0b10000110#8, 0b00000100#8, 0#8⟩ = some (.frame11 0#1 0x43#8) := by decide
/-- The frame of 0x5A, `11010110100` (V-C1), with acknowledgment level 1 above it. -/
theorem test_decode_exchange12 :
    decoded ⟨.f12, 0b10110100#8, 0b00001110#8, 0#8⟩ = some (.exchange12 1#1 0x5A#8) := by decide
/-- The keys beside the last sub-codes and the unused event are reserved (R93), and malformed wire words are refused. -/
theorem test_decode_refused :
    decoded ⟨.k8, 0b10100100#8, 0#8, 0#8⟩ = none ∧ decoded ⟨.k8, 0b11000000#8, 0#8, 0#8⟩ = none ∧
    decoded ⟨.k8, 0b11100011#8, 0#8, 0#8⟩ = none ∧ decoded ⟨.f11, 0b10000111#8, 0b00000100#8, 0#8⟩ = none ∧
    decoded ⟨.f11, 0b10000110#8, 0b00000000#8, 0#8⟩ = none ∧
    decoded ⟨.f12, 0b10110100#8, 0b00000100#8, 0#8⟩ = none := by decide

/-! ## Single steps -/

/-- The state after an operation, or the state itself where it stops. -/
def after (i : Instr) (s : State) : State :=
  match exec i s with
  | .next t => t
  | .fault _ => s
  | .refused _ => s

/-- The last thing given to the world. -/
def lastOut (s : State) : Option Output := s.trace.getLast?

/-- Receiving at position `p` with accumulator `a`. -/
def rxAt (p : Nat) (a : Byte) : State := { State.reset with rxPos := p, rxAcc := a }

/-- The exchange of `b` waiting at position `p`. -/
def txAt (p : Nat) (b : Byte) : State :=
  { State.reset with
    mode := .write, txPos := p, txFrame := mkFrame b, txOutcome := .active, gate := .taken, dataDrv := .low }

/-- The parameter `LINE_CFG_CAN_FAIL` on. -/
def canFail : Config := { Config.default with lineCfgCanFail := true }

/-- `POS_WIDTH` 5. -/
def fiveBits : Config := { Config.default with extraPosBits := 1 }

/-- The policy `RELEASE`. -/
def releasing : Config := { Config.default with giveupPolicy := .release }

/-- An inbox of capacity 2. -/
def twoBytes : Config := { Config.default with inboxCapacity := some 2 }

/-- S5: a start bit of 1 aborts. -/
theorem test_rxStart_abort :
    (after (.rxStart 1#1 .none) State.reset).txFrame = 0x5FC#11 ∧
    (after (.rxStart 1#1 .none) State.reset).txPos = 1 ∧
    (after (.rxStart 1#1 .none) State.reset).mode = .write := by decide

/-- S4, step 8: bit 6 of 0x41. -/
theorem test_rxData_bit6 : after (.rxData 7 1#1) (rxAt 7 0x01#8) = rxAt 8 0x41#8 := by decide

/-- P8, step 9: the last data bit; a 0 clears its place. -/
theorem test_rxData_edges :
    after (.rxData 8 1#1) (rxAt 8 0x02#8) = rxAt 9 0x82#8 ∧
    after (.rxData 8 0#1) (rxAt 8 0x82#8) = rxAt 9 0x02#8 := by decide

/-- S4, step 10: the parity of 0x41 is 1. -/
theorem test_rxParity_match : after (.rxParity 1#1 .none) (rxAt 9 0x41#8) = rxAt 10 0x41#8 := by decide

/-- P8, step 10: 0 in the parity slot of 0x82 aborts. -/
theorem test_rxParity_abort :
    (after (.rxParity 0#1 .none) (rxAt 9 0x82#8)).trace.head? = some (.raised .parity) ∧
    (after (.rxParity 0#1 .none) (rxAt 9 0x82#8)).rxAcc = 0#8 := by decide

/-- S4, step 11: 0x41 is delivered and the receive state cleared. -/
theorem test_rxStop_delivers :
    (after (.rxStop 1#1 .none) (rxAt 10 0x41#8)).inbox = [0x41#8] ∧
    (after (.rxStop 1#1 .none) (rxAt 10 0x41#8)).rxPos = 0 ∧
    (after (.rxStop 1#1 .none) (rxAt 10 0x41#8)).rxAcc = 0#8 := by decide

/-- V-T1, first row. -/
theorem test_txIgnore : after .txIgnore (txAt 0 0x5A#8) = txAt 0 0x5A#8 := by decide

/-- S6, step 3: bit 2 of 0x6B4 is 1. -/
theorem test_txBit_two :
    (after (.txBit 2) (txAt 2 0x5A#8)).dataDrv = .high ∧ (after (.txBit 2) (txAt 2 0x5A#8)).txPos = 3 := by
  decide

/-- P5, step 24: the parity bit of 0xF4 is 0. -/
theorem test_txBit_parity :
    (after (.txBit 9) (txAt 9 0xF4#8)).dataDrv = .low ∧ (after (.txBit 9) (txAt 9 0xF4#8)).txPos = 10 := by
  decide

/-- S6, step 11. -/
theorem test_txStop :
    (after .txStop (txAt 10 0x5A#8)).trace = [.line (.dataSet 1#1), .line .dataRelease] ∧
    (after .txStop (txAt 10 0x5A#8)).txPos = 11 := by decide

/-- S6, step 12, and S7, step 1. -/
theorem test_txAck :
    (after (.txAck 0#1) (txAt 11 0x5A#8)).txOutcome = .success ∧
    (after (.txAck 1#1) (txAt 11 0x5A#8)).txOutcome = .failure ∧
    (after (.txAck 1#1) (txAt 11 0x5A#8)).gate = .available := by decide

/-- S6, step 1: the frame, and the line actions of R143 in order. -/
theorem test_txStart_ok :
    (after (.txStart 0x5A#8 .none) State.reset).txFrame = 0x6B4#11 ∧
    (after (.txStart 0x5A#8 .none) State.reset).trace =
      [.line .clkLow, .line (.hold 100), .line (.dataSet 0#1), .line .clkRelease, .status .ok] := by decide

/-- R142: a failing step 5 leaves the gate taken; the same input is ignored where the parameter is off. -/
theorem test_txStart_fails :
    (after (.txStart 0x5A#8 .step5) { State.reset with cfg := canFail }).gate = .taken ∧
    (after (.txStart 0x5A#8 .step5) { State.reset with cfg := canFail }).mode = .read ∧
    lastOut (after (.txStart 0x5A#8 .step5) { State.reset with cfg := canFail }) = some (.status .eConfig) ∧
    lastOut (after (.txStart 0x5A#8 .step5) State.reset) = some (.status .ok) := by decide

/-- S7, step 2. -/
theorem test_txCollect_failure :
    lastOut (after .txCollect { State.reset with txOutcome := .failure }) = some (.status .eAck) ∧
    (after .txCollect { State.reset with txOutcome := .failure }).txOutcome = .inactive := by decide

/-- P7, step 14: not enabled while the gate is taken. -/
theorem test_txCollect_waits : (after .txCollect (txAt 1 0xFE#8)).txOutcome = .active := by decide

/-- P5 and P6, step 5: the two policies. -/
theorem test_txGiveup :
    (after .txGiveup (txAt 4 0xED#8)).gate = .taken ∧
    (after .txGiveup { txAt 4 0xED#8 with cfg := releasing }).gate = .available := by decide

/-- R220: a RESET in mid-exchange. -/
theorem test_reset :
    (after .reset { txAt 4 0xED#8 with inbox := [1#8], cbEnabled := true, callback := some 3#8 }).mode = .read ∧
    (after .reset { txAt 4 0xED#8 with inbox := [1#8], cbEnabled := true, callback := some 3#8 }).inbox = [] ∧
    (after .reset { txAt 4 0xED#8 with inbox := [1#8], cbEnabled := true, callback := some 3#8 }).cbSet = false := by
  decide

/-- R175: the flag `cb_enabled` is not touched. -/
theorem test_configure :
    (after (.configure (some 3#8)) State.reset).cbSet = true ∧ (after (.configure (some 3#8)) State.reset).cbEnabled = false ∧
    lastOut (after (.configure none) State.reset) = some (.status .eInval) := by decide

/-- R176: first in, first out; S9: an empty inbox. -/
theorem test_read :
    lastOut (after .read { State.reset with inbox := [1#8, 2#8] }) = some (.byteRead 1#8) ∧
    (after .read { State.reset with inbox := [1#8, 2#8] }).inbox = [2#8] ∧
    lastOut (after .read State.reset) = some (.status .eTimeoutRead) := by decide

/-- R177: a change flushes, a repetition does not. -/
theorem test_enableCb :
    (after .enableCb { State.reset with inbox := [1#8] }).inbox = [] ∧
    (after .enableCb { State.reset with inbox := [1#8], cbEnabled := true }).inbox = [1#8] := by decide

theorem test_disableCb :
    (after .disableCb { State.reset with inbox := [1#8], cbEnabled := true }).inbox = [] ∧
    (after .disableCb { State.reset with inbox := [1#8] }).inbox = [1#8] := by decide

/-- V-C1: the parity bits of 0x00, 0x01, 0x80, 0xFF. -/
theorem test_parity :
    parityOf 0x00#8 = 1#1 ∧ parityOf 0x01#8 = 0#1 ∧ parityOf 0x80#8 = 0#1 ∧ parityOf 0xFF#8 = 1#1 := by decide

/-- V-C2. -/
theorem test_chkpar :
    lastOut (after (.chkpar 0x43#8 1#1) State.reset) = some (.boolResult false) ∧
    lastOut (after (.chkpar 0x43#8 0#1) State.reset) = some (.boolResult true) := by decide

/-- V-C1: the frames of 0x5A, 0xFE, 0x00. -/
theorem test_mkframe :
    mkFrame 0x5A#8 = 0x6B4#11 ∧ mkFrame 0xFE#8 = 0x5FC#11 ∧ mkFrame 0x00#8 = 0x600#11 := by decide

/-- S4 as one operation. -/
theorem test_frame11 :
    (after (.frame11 1#1 0x41#8) State.reset).inbox = [0x41#8] ∧ (after (.frame11 1#1 0x41#8) State.reset).rxPos = 0 := by
  decide

/-- S6 as one operation: the levels on DATA are 0, then the frame of 0x5A from bit 1, then the release. -/
theorem test_exchange12 :
    (after (.exchange12 0#1 0x5A#8) State.reset).txOutcome = .success ∧
    (after (.exchange12 0#1 0x5A#8) State.reset).trace.drop 5 =
      [.line (.dataSet 0#1), .line (.dataSet 1#1), .line (.dataSet 0#1), .line (.dataSet 1#1), .line (.dataSet 1#1),
        .line (.dataSet 0#1), .line (.dataSet 1#1), .line (.dataSet 0#1), .line (.dataSet 1#1), .line (.dataSet 1#1),
        .line .dataRelease] := by decide

/-- The step runs what `withFetchWord` places (0x09 is RX.PARITY with DATA 0, key 0x1B is TX.ACK). -/
theorem test_fetch :
    step (State.reset.withFetchWord 8 0x09) =
      exec (.rxParity 0#1 .none) (State.reset.withFetchWord 8 0x09).popEvent ∧
    step (State.reset.withFetchWord 8 0x1B) = exec (.txAck 0#1) (State.reset.withFetchWord 8 0x1B).popEvent := ⟨rfl, rfl⟩

/-! ## Witnesses: states and operands that meet the hypotheses of each statement -/

/-- A state with one event pending. -/
def withEvent (e : Event) (s : State) : State := { s with events := [e] }

/-- An edge with DATA level `d`. -/
def edgeOf (d : Bit) : Event := .edge 0#1 d .none

/-- A step from the state goes on. -/
def stepsOn (s : State) : Bool :=
  match step s with
  | .next _ => true
  | .fault _ => false
  | .refused _ => false

/-- The operation goes on. -/
def runsOn (i : Instr) (s : State) : Bool :=
  match exec i s with
  | .next _ => true
  | .fault _ => false
  | .refused _ => false

theorem witness_EncodedOperationDecodesToItself :
    (Instr.rxData 1 0#1).wf = true ∧ (Instr.rxData 8 0#1).wf = true ∧ (Instr.txBit 9).wf = true ∧
    (Instr.illegal .read 15).wf = true ∧ (Instr.configure (some 255#8)).wf = true := by decide

theorem witness_ReservedKeysSelectNothing :
    reservedKey 0xA4#8 ∧ reservedKey 0xBF#8 ∧ reservedKey 0xC0#8 ∧ reservedKey 0xDF#8 ∧ reservedKey 0xE3#8 ∧
    reservedKey 0xFF#8 ∧ ¬ reservedKey 0xA3#8 ∧ ¬ reservedKey 0x9F#8 ∧ ¬ reservedKey 0xE2#8 := by
  unfold reservedKey; decide

theorem witness_DecodedWordHasOneMeaning :
    decoded ⟨.k8, 0x0F#8, 0#8, 0#8⟩ = some (.illegal .read 15) ∧ decoded ⟨.k8, 0x3F#8, 0xFF#8, 0#8⟩ = some (.txStart 0xFF#8 .none) ∧
    decoded ⟨.f11, 0x00#8, 0x04#8, 0#8⟩ = some (.frame11 0#1 0#8) ∧
    decoded ⟨.f12, 0xFE#8, 0x0F#8, 0#8⟩ = some (.exchange12 1#1 0xFF#8) := by decide

/-- An edge at the greatest position a key can name, another event, and an edge beyond the key's four bits. -/
theorem witness_StepRunsTheDecodedOperation :
    ((withEvent (edgeOf 1#1) (rxAt 15 0xFF#8)).events = [edgeOf 1#1] ∧
      (withEvent (edgeOf 1#1) (rxAt 15 0xFF#8)).clkDrv = .released ∧ livePos (withEvent (edgeOf 1#1) (rxAt 15 0xFF#8)) ≤ 15) ∧
    (withEvent .collect { State.reset with clkDrv := .low }).events = [.collect] ∧
    16 ≤ livePos (withEvent (edgeOf 1#1) { rxAt 16 0xFF#8 with cfg := fiveBits }) := by decide

theorem witness_NoEventNoOperation :
    State.reset.events = [] ∧ (withEvent (edgeOf 1#1) { State.reset with clkDrv := .low }).events = [edgeOf 1#1] ∧
    (withEvent (edgeOf 1#1) { State.reset with clkDrv := .low }).clkDrv = .low := by decide

/-- Every position of both modes at a boundary of its clause, on a line driven low (`v` is 0) and on one not driven (`v` is
the peripheral's 1). -/
theorem witness_EdgeDispatchFollowsModeAndPosition :
    (∀ p ∈ [0, 1, 8, 9, 10, 11, 15], (withEvent (edgeOf 1#1) (rxAt p 0#8)).mode = .read ∧
      (withEvent (edgeOf 1#1) (rxAt p 0#8)).rxPos = p ∧ (withEvent (edgeOf 1#1) (rxAt p 0#8)).dataDrv ≠ .low) ∧
    (∀ p ∈ [0, 1, 9, 10, 11, 12, 15], (withEvent (edgeOf 1#1) (txAt p 0#8)).mode = .write ∧
      (withEvent (edgeOf 1#1) (txAt p 0#8)).txPos = p ∧ (withEvent (edgeOf 1#1) (txAt p 0#8)).dataDrv = .low) := by decide

/-- The selections of the receive operations at each position, boundaries of RX.DATA included. -/
theorem witness_RxStartTakesAStartBitOrAborts :
    ∀ p ∈ [0, 1, 8, 9, 10], (rxAt p 0#8).mode = .read ∧ (rxAt p 0#8).rxPos = p := by decide

/-- The selections of the transmit operations at each position, boundaries of TX.BIT included. -/
theorem witness_TxIgnoreDoesNothing :
    ∀ p ∈ [0, 1, 9, 10, 11], (txAt p 0#8).mode = .write ∧ (txAt p 0#8).txPos = p := by decide

theorem witness_TxAckFinishesTheWrite : (txAt 11 0#8).mode = .write ∧ (txAt 11 0#8).txPos = 11 := by decide

theorem witness_RxDataStoresOneBit : 1 ≤ (1 : Nat) ∧ (8 : Nat) ≤ 8 ∧ runsOn (.rxData 8 1#1) (rxAt 8 0#8) = true := by
  decide

theorem witness_RxParityAcceptsOddTotals :
    (popcount (rxAt 9 0x41#8).rxAcc + (1#1 : Bit).toNat) % 2 = 1 ∧
    (popcount (rxAt 9 0x41#8).rxAcc + (0#1 : Bit).toNat) % 2 = 0 ∧
    (popcount (rxAt 9 0x43#8).rxAcc + (0#1 : Bit).toNat) % 2 = 1 := by decide

/-- A registered callback, enabled; no callback; an inbox with one place left; an unbounded one. -/
theorem witness_RxStopDeliversOrAborts :
    ({ rxAt 10 1#8 with cbEnabled := true, callback := some 0#8 } : State).callback = some 0#8 ∧
    ({ rxAt 10 1#8 with cbEnabled := true } : State).callback = none ∧
    (∀ n, ({ rxAt 10 1#8 with cfg := twoBytes, inbox := [5#8] } : State).cfg.inboxCapacity = some n → 1 < n) ∧
    (∀ n, (rxAt 10 1#8).cfg.inboxCapacity = some n → (rxAt 10 1#8).inbox.length < n) := by
  refine ⟨rfl, rfl, fun n h => ?_, fun n h => nomatch h⟩
  cases h; decide

theorem witness_FullInboxIsRefused :
    ({ rxAt 10 1#8 with cfg := twoBytes, inbox := [5#8, 6#8] } : State).cfg.inboxCapacity = some 2 ∧
    ({ rxAt 10 1#8 with cfg := twoBytes, inbox := [5#8, 6#8] } : State).inbox.length = 2 ∧
    ({ rxAt 10 1#8 with cfg := twoBytes, inbox := [5#8, 6#8] } : State).cbEnabled = false := by decide

/-- The three clauses: started, busy, failed. -/
theorem witness_AbortReadStartsTheResend :
    ((rxAt 9 0x82#8).gate = .available ∧ (rxAt 9 0x82#8).cfg.lineCfgCanFail = false) ∧
    ({ rxAt 9 0x82#8 with gate := .taken } : State).gate = .taken ∧
    (({ rxAt 9 0x82#8 with cfg := canFail } : State).gate = .available ∧
      ({ rxAt 9 0x82#8 with cfg := canFail } : State).cfg.lineCfgCanFail = true ∧ LineFault.step7 ≠ LineFault.none) := by
  decide

theorem witness_TxStartTakesTheGateOrIsBusy :
    (State.reset.gate = .available ∧ State.reset.cfg.lineCfgCanFail = false) ∧ (txAt 3 0x5A#8).gate = .taken := by decide

theorem witness_FailedConfigurationKeepsTheGate :
    ({ State.reset with cfg := canFail } : State).gate = .available ∧
    ({ State.reset with cfg := canFail } : State).cfg.lineCfgCanFail = true ∧
    LineFault.step4 ≠ LineFault.none ∧ LineFault.step5 ≠ LineFault.none ∧ LineFault.step7 ≠ LineFault.none := by decide

/-- READ mode with the gate taken, and a start that steps on. -/
theorem witness_AbandonedGateStaysTaken :
    (withEvent (.start 1#8 .none) { State.reset with gate := .taken, cfg := canFail }).mode = .read ∧
    (withEvent (.start 1#8 .none) { State.reset with gate := .taken, cfg := canFail }).cfg.giveupPolicy = .keep ∧
    stepsOn (withEvent (.start 1#8 .none) { State.reset with gate := .taken, cfg := canFail }) = true := by decide

theorem witness_TxBitDrivesItsFrameBit :
    1 ≤ (1 : Nat) ∧ (9 : Nat) ≤ 9 ∧ (txAt 1 0x5A#8).txFrame.getLsbD 1 = false ∧
    (txAt 9 0x5A#8).txFrame.getLsbD 9 = true := by decide

theorem witness_TxStopSendsAndReleases : (txAt 10 0x5A#8).FrameBits := ⟨rfl, rfl⟩

theorem witness_TxCollectReturnsTheOutcomeOnce :
    (∀ o ∈ [TxOutcome.success, .failure, .inactive, .active],
      ({ State.reset with txOutcome := o } : State).gate = .available ∧
      ({ State.reset with txOutcome := o } : State).txOutcome = o) := by decide

theorem witness_TxCollectWaitsForTheGate : (txAt 1 0#8).gate = .taken := rfl

theorem witness_TxGiveupFollowsThePolicy :
    State.reset.cfg.giveupPolicy = .keep ∧ ({ State.reset with cfg := releasing } : State).cfg.giveupPolicy = .release := by
  decide

theorem witness_ReadTakesTheOldestByte :
    ({ State.reset with inbox := [7#8] } : State).inbox = 7#8 :: [] ∧ State.reset.inbox = [] := by decide

theorem witness_CallbackToggleFlushesOnChange :
    State.reset.cbEnabled = false ∧ ({ State.reset with cbEnabled := true } : State).cbEnabled = true := by decide

theorem witness_ParityIsOdd : popcount 0xFF#8 % 2 = 0 ∧ popcount 0x80#8 % 2 = 1 := by decide

/-- Two flipped data bits; a flipped data bit and the parity bit. -/
theorem witness_ChkparAcceptsThePairingBit :
    (popcount 0x81#8 + (0#1 : Bit).toNat) % 2 = 0 ∧ (popcount 0x80#8 + (1#1 : Bit).toNat) % 2 = 0 := by decide

theorem witness_MkframeLaysOutTheFrame : (0 : Nat) < 8 ∧ (7 : Nat) < 8 := by decide

theorem witness_ParityLaws : (0 : Nat) < 8 ∧ (7 : Nat) < 8 := by decide

theorem witness_FramesAsNumbers : mkFrame 0x41#8 = mkFrame 0x41#8 := rfl

/-- Between frames at reset; delivery to a callback, and to an inbox with one place left. -/
theorem witness_WholeFrameIsDelivered :
    State.reset.AwaitsFrame ∧ State.reset.CanDeliver ∧
    ({ State.reset with cbEnabled := true, callback := some 0#8 } : State).CanDeliver ∧
    ({ State.reset with cfg := twoBytes, inbox := [5#8] } : State).CanDeliver := by
  refine ⟨⟨rfl, rfl, rfl, rfl, nofun⟩, .inr nofun, .inl ⟨rfl, rfl⟩, .inr fun n h => ?_⟩
  cases h; decide

theorem witness_CorruptFrameStartsTheResend :
    State.reset.AwaitsFrame ∧ State.reset.gate = .available ∧ (0#1 : Bit) ≠ parityOf 0x41#8 :=
  ⟨⟨rfl, rfl, rfl, rfl, nofun⟩, rfl, by decide⟩

theorem witness_ElevenLevelsAreClassified :
    State.reset.AwaitsFrame ∧ State.reset.CanDeliver ∧ (0#1 : Bit) ≠ parityOf 0x41#8 ∧ (1#1 : Bit) = parityOf 0x41#8 :=
  ⟨⟨rfl, rfl, rfl, rfl, nofun⟩, .inr nofun, by decide, by decide⟩

theorem witness_WholeExchangeSendsTheFrame : (rxAt 5 0x0F#8).mode = .read ∧ (rxAt 5 0x0F#8).gate = .available := by
  decide

theorem witness_BusyExchangeIsTurnedAway : (txAt 5 0#8).gate = .taken := rfl

/-- The four clauses: collected, given up after one edge, busy, failed. -/
theorem witness_BlockingWriteReportsTheAcknowledgment :
    (State.reset.mode = .read ∧ State.reset.gate = .available ∧ State.reset.cfg.lineCfgCanFail = false) ∧
    (Event.reset ∉ [edgeOf 1#1] ∧ ∃ u, runEvents [edgeOf 1#1] { writeStarted 0xED#8 State.reset with
      trace := State.reset.trace ++ initiationActions State.reset ++ [.status .ok] } = .next u) ∧
    (txAt 5 0#8).gate = .taken ∧
    (({ State.reset with cfg := canFail } : State).gate = .available ∧
      ({ State.reset with cfg := canFail } : State).cfg.lineCfgCanFail = true ∧ LineFault.step4 ≠ LineFault.none) :=
  ⟨by decide, ⟨by decide, _, rfl⟩, rfl, by decide⟩

theorem witness_WireFormatsAreTheirEvents : State.reset.gate = .available := rfl

theorem witness_ReceiveStepsLeaveTheRest :
    runsOn (.rxStart 0#1 .none) State.reset = true ∧ runsOn (.rxData 1 1#1) (rxAt 1 0#8) = true ∧
    (1#1 : Bit) = parityOf (rxAt 9 0x41#8).rxAcc ∧ runsOn (.rxParity 1#1 .none) (rxAt 9 0x41#8) = true ∧
    runsOn (.rxStop 1#1 .none) (rxAt 10 0x41#8) = true := by decide

theorem witness_AbortDeliversNothing :
    runsOn (.rxStart 1#1 .none) State.reset = true ∧ (0#1 : Bit) ≠ parityOf (rxAt 9 0x41#8).rxAcc ∧
    runsOn (.rxParity 0#1 .none) (rxAt 9 0x41#8) = true ∧ runsOn (.rxStop 0#1 .none) (rxAt 10 0x41#8) = true := by decide

theorem witness_TransmitStepsLeaveTheRest :
    runsOn .txIgnore (txAt 0 0#8) = true ∧ runsOn (.txBit 1) (txAt 1 0#8) = true ∧
    runsOn (.txBit 9) (txAt 9 0#8) = true ∧ runsOn .txStop (txAt 10 0#8) = true ∧
    runsOn (.txAck 1#1) (txAt 11 0#8) = true := by decide

theorem witness_HostOperationsLeaveTheRest :
    runsOn (.txStart 0#8 .none) State.reset = true ∧
    runsOn .txCollect { State.reset with txOutcome := .success } = true ∧ runsOn .txGiveup State.reset = true ∧
    runsOn .reset State.reset = true := by decide

theorem witness_FacadeAndPureOperationsLeaveTheBlock :
    runsOn (.configure none) State.reset = true ∧ runsOn .read State.reset = true ∧ runsOn .enableCb State.reset = true ∧
    runsOn .disableCb State.reset = true ∧ runsOn (.parity 0#8) State.reset = true ∧
    runsOn (.chkpar 0#8 0#1) State.reset = true ∧ runsOn (.mkframe 0#8) State.reset = true := by decide

theorem witness_WireOperationsLeaveTheRest :
    runsOn (.frame11 0#1 0#8) State.reset = true ∧ runsOn (.exchange12 0#1 0#8) State.reset = true := by decide

/-- The exchange of 0x5A at position 3 meets the invariants and steps on. -/
theorem witness_StepKeepsTheInvariants :
    (withEvent (edgeOf 1#1) (txAt 3 0x5A#8)).Inv ∧ (withEvent (edgeOf 1#1) (txAt 3 0x5A#8)).DefaultParams ∧
    stepsOn (withEvent (edgeOf 1#1) (txAt 3 0x5A#8)) = true := by
  refine ⟨?_, ⟨rfl, rfl⟩, by decide⟩
  constructor <;> simp [withEvent, txAt, State.reset, State.FrameBits, mkFrame]

/-- The greatest positions of the two ranges. -/
theorem witness_StepKeepsPositionsInRange :
    (withEvent (edgeOf 1#1) (rxAt 10 0x41#8)).PosInRange ∧ stepsOn (withEvent (edgeOf 1#1) (rxAt 10 0x41#8)) = true ∧
    (withEvent (edgeOf 1#1) (txAt 11 0#8)).PosInRange ∧ stepsOn (withEvent (edgeOf 1#1) (txAt 11 0#8)) = true := by
  unfold State.PosInRange; decide

/-- The greatest value of a four-bit counter. -/
theorem witness_StepKeepsCountersInTheirWidth :
    (withEvent .giveup (rxAt 15 0x41#8)).PosInWidth ∧ stepsOn (withEvent .giveup (rxAt 15 0x41#8)) = true ∧
    (withEvent (edgeOf 1#1) (txAt 9 0#8)).PosInWidth ∧ stepsOn (withEvent (edgeOf 1#1) (txAt 9 0#8)) = true := by
  unfold State.PosInWidth; decide

theorem witness_StepKeepsTheGateHeldByAWrite :
    (withEvent (edgeOf 1#1) (txAt 11 0#8)).cfg.giveupPolicy = .keep ∧
    (withEvent (edgeOf 1#1) (txAt 11 0#8)).WriteHoldsGate ∧ stepsOn (withEvent (edgeOf 1#1) (txAt 11 0#8)) = true :=
  ⟨rfl, fun _ => rfl, by decide⟩

theorem witness_FrameRegisterKeepsItsFixedBits :
    Instr.txAck 0#1 ≠ Instr.reset ∧ (txAt 11 0#8).FrameBits ∧ runsOn (.txAck 0#1) (txAt 11 0#8) = true ∧
    State.reset.gate = .available ∧ runsOn (.txStart 0#8 .none) State.reset = true :=
  ⟨nofun, ⟨rfl, rfl⟩, by decide, rfl, by decide⟩

theorem witness_OnlyAckOrResetEndsAWrite :
    (withEvent (edgeOf 1#1) (txAt 11 0#8)).WriteHoldsGate ∧ (withEvent (edgeOf 1#1) (txAt 11 0#8)).mode = .write ∧
    (∃ t, step (withEvent (edgeOf 1#1) (txAt 11 0#8)) = .next t ∧ t.mode = .read) :=
  ⟨fun _ => rfl, rfl, _, rfl, rfl⟩

theorem witness_FrameIsImmutableDuringAWrite :
    (withEvent (.start 0xFF#8 .none) (txAt 3 0x5A#8)).WriteHoldsGate ∧
    (withEvent (.start 0xFF#8 .none) (txAt 3 0x5A#8)).mode = .write ∧
    stepsOn (withEvent (.start 0xFF#8 .none) (txAt 3 0x5A#8)) = true :=
  ⟨fun _ => rfl, rfl, by decide⟩

/-- A delivering edge, a frame, a read of one byte and of none, a toggle either way, a reset, and another event. -/
theorem witness_InboxIsAQueue :
    stepsOn (withEvent (edgeOf 1#1) (rxAt 10 0x41#8)) = true ∧ stepsOn (withEvent (.frame11 1#1 0x41#8) State.reset) = true ∧
    stepsOn (withEvent .read { State.reset with inbox := [1#8] }) = true ∧ stepsOn (withEvent .read State.reset) = true ∧
    stepsOn (withEvent .enableCb State.reset) = true ∧ stepsOn (withEvent .disableCb State.reset) = true ∧
    stepsOn (withEvent .reset State.reset) = true ∧ stepsOn (withEvent .giveup State.reset) = true := by decide

theorem witness_ParametersAreFixed : stepsOn State.reset = true ∧ stepsOn (withEvent .reset State.reset) = true := by decide

/-- One operation of each outcome. -/
theorem witness_TraceIsNeverRead :
    runsOn (.mkframe 0#8) State.reset = true ∧ exec (.illegal .read 11) State.reset = .fault (.illegalPosition .read 11) ∧
    exec .txCollect State.reset = .refused (.collectWithoutOutcome .inactive) := ⟨by decide, rfl, rfl⟩

/-- No data step and eight of them. -/
theorem witness_ShiftRegisterFormAgrees :
    ([] : List Bit).length ≤ 8 ∧ (dataBits 0x41#8).length ≤ 8 ∧ (rxAt 1 0#8).mode = .read ∧ (rxAt 1 0#8).rxPos = 1 ∧
    (rxAt 1 0#8).rxAcc = 0#8 ∧ (rxAt 1 0#8).clkDrv = .released ∧ (rxAt 1 0#8).dataDrv ≠ .low := by decide

end Sys2Proof.Tests
end

/-!
PROOFS. The K8 decoder on every key, and the frames among the eleven-bit numbers.
-/

namespace Sys2Proof

open Sys2Proof.Machine

/-! ## The key decoder -/

/-- A key's position field has four bits (R89). -/
theorem keyPos_lt (key : Byte) : keyPos key < 16 := (key.extractLsb' 0 4).isLt

/-- The reserved keys, by the numbers of their event and sub-code on which the decoder branches. -/
theorem reservedKey_iff_toNat (key : Byte) : reservedKey key ↔
    ((keyEv key).toNat = 5 ∧ 4 ≤ (keySub key).toNat) ∨ (keyEv key).toNat = 6 ∨
      ((keyEv key).toNat = 7 ∧ 3 ≤ (keySub key).toNat) := by
  simp [reservedKey, BitVec.toNat_eq]

/-- The decoder refuses a reserved key by name (R93). -/
theorem decodeKey_of_reserved {key : Byte} (h : reservedKey key) (b1 b2 : Byte) :
    decodeKey key b1 b2 = .error (.reservedKey key) := by
  unfold decodeKey
  obtain ⟨hev, hsub⟩ | hev | ⟨hev, hsub⟩ := (reservedKey_iff_toNat key).1 h
  · simp only [hev]
    split
    case h_5 => rfl
    all_goals omega
  · simp only [hev]
  · simp only [hev]
    split
    case h_4 => rfl
    all_goals omega

/-- Every key is reserved or read as an operation whose position its rule admits. -/
theorem reservedKey_or_decodeKey_wf (key b1 b2 : Byte) :
    reservedKey key ∨ ∃ i, decodeKey key b1 b2 = .ok i ∧ i.wf = true := by
  have hev := (keyEv key).isLt
  rw [reservedKey_iff_toNat]
  unfold decodeKey
  split
  case h_1 => exact .inr ⟨_, rfl, edgeOpOf_wf _ (keyPos_lt key) _ _⟩
  case h_6 hev5 =>
    split
    case h_5 => exact .inl (.inl ⟨hev5, by grind⟩)
    all_goals exact .inr ⟨_, rfl, rfl⟩
  case h_7 hev7 =>
    split
    case h_4 => exact .inl (.inr (.inr ⟨hev7, by grind⟩))
    all_goals exact .inr ⟨_, rfl, rfl⟩
  case h_8 => exact .inl (.inr (.inl (by grind)))
  all_goals exact .inr ⟨_, rfl, rfl⟩

/-! ## Frames as numbers -/

/-- A frame's number: stop bit, parity bit and data at their places (R80). -/
theorem toNat_frameOf (p : Bit) (b : Byte) : (frameOf p b).toNat = 1024 + 512 * p.toNat + 2 * b.toNat := by
  simp only [frameOf, BitVec.toNat_append]
  rw [← Nat.shiftLeft_add_eq_or_of_lt (BitVec.isLt _), ← Nat.shiftLeft_add_eq_or_of_lt (BitVec.isLt _),
    ← Nat.shiftLeft_add_eq_or_of_lt (BitVec.isLt _)]
  simp only [Nat.shiftLeft_eq, BitVec.toNat_ofNat]
  omega

/-- A bit of a frame, by division. -/
theorem toNat_frameBit (f : Frame) (i : Nat) : (frameBit f i).toNat = f.toNat / 2 ^ i % 2 := by
  simp [frameBit, bitAt, BitVec.toNat_ofBool, BitVec.getLsbD, Nat.toNat_testBit]

/-- A frame's data field, by division. -/
theorem toNat_unframe (f : Frame) : (unframe f).toNat = f.toNat / 2 % 256 := by
  simp [unframe, BitVec.extractLsb'_toNat, Nat.shiftRight_eq_div_pow]

/-- Every eleven-bit value with the fixed start and stop bits is built from its own parity and data fields (R80). -/
theorem frameOf_fields {f : Frame} (hstart : frameBit f 0 = 0#1) (hstop : frameBit f 10 = 1#1) :
    frameOf (frameBit f 9) (unframe f) = f := by
  have h0 : f.toNat / 2 ^ 0 % 2 = 0 := by rw [← toNat_frameBit, hstart]; rfl
  have h10 : f.toNat / 2 ^ 10 % 2 = 1 := by rw [← toNat_frameBit, hstop]; rfl
  apply BitVec.eq_of_toNat_eq
  rw [toNat_frameOf, toNat_frameBit, toNat_unframe]
  have := f.isLt
  omega

/-- The valid frames are exactly the values of MKFRAME (R116). -/
theorem Frame.valid_iff_exists_mkFrame (f : Frame) : f.valid = true ↔ ∃ b, mkFrame b = f := by
  constructor
  · intro h
    simp only [Frame.valid, Bool.and_eq_true, decide_eq_true_eq] at h
    obtain ⟨⟨hstart, hstop⟩, hparity⟩ := h
    exact ⟨unframe f, by rw [mkFrame, ← hparity, frameOf_fields hstart hstop]⟩
  · rintro ⟨b, rfl⟩
    simp [Frame.valid, mkFrame]

/-- Different bytes have different frames. -/
theorem mkFrame_injective : Function.Injective mkFrame :=
  Function.LeftInverse.injective (g := unframe) fun b => unframe_frameOf (parityOf b) b

/-- A frame's number, with the parity bit of its byte (R81). -/
theorem toNat_mkFrame (b : Byte) : (mkFrame b).toNat = 1024 + 512 * (parityOf b).toNat + 2 * b.toNat :=
  toNat_frameOf (parityOf b) b

/-- A frame's number is at least that of 0x01: the frame of 0x00 has its parity bit set. -/
theorem mkFrame_ge (b : Byte) : 0x402 ≤ (mkFrame b).toNat := by
  by_cases hb : b = 0#8
  · subst hb; decide
  · have : b.toNat ≠ 0 := fun h => hb (BitVec.eq_of_toNat_eq h)
    rw [toNat_mkFrame]; omega

/-- A frame's number is at most that of 0xFF. -/
theorem mkFrame_le (b : Byte) : (mkFrame b).toNat ≤ 0x7FE := by
  have := b.isLt
  have := (parityOf b).isLt
  rw [toNat_mkFrame]; omega

/-- The numbers that are frames, in the order of the bytes they carry. -/
theorem validNumbers_perm : List.Perm ((List.range 2048).filter fun n => Frame.valid (BitVec.ofNat 11 n))
    ((List.range 256).map fun n => (mkFrame (BitVec.ofNat 8 n)).toNat) := by
  refine (List.perm_ext_iff_of_nodup (List.nodup_range.filter _) (List.nodup_range.map_on ?_)).2 fun n => ?_
  · intro a ha b hb h
    have := congrArg BitVec.toNat (mkFrame_injective (BitVec.eq_of_toNat_eq h))
    rwa [BitVec.toNat_ofNat, BitVec.toNat_ofNat, Nat.mod_eq_of_lt (List.mem_range.1 ha),
      Nat.mod_eq_of_lt (List.mem_range.1 hb)] at this
  · simp only [List.mem_filter, List.mem_map, List.mem_range, Frame.valid_iff_exists_mkFrame]
    constructor
    · rintro ⟨hn, b, hb⟩
      exact ⟨b.toNat, b.isLt, by simp [hb, Nat.mod_eq_of_lt hn]⟩
    · rintro ⟨m, -, rfl⟩
      exact ⟨(mkFrame _).isLt, BitVec.ofNat 8 m, by simp⟩

end Sys2Proof

section
open Sys2Proof

/-- Settles O2: the two cases of the key decoder's specification. -/
theorem reservedKeysSelectNothing : Obligations.ReservedKeysSelectNothing := fun key b1 b2 =>
  ⟨fun h => decodeKey_of_reserved h b1 b2, (reservedKey_or_decodeKey_wf key b1 b2).resolve_left⟩

/-- Settles O36: a frame's number is computed from its fields, and the valid numbers are a permutation of the 256 frames. -/
theorem framesAsNumbers : Obligations.FramesAsNumbers := by
  refine ⟨fun b => ⟨toNat_mkFrame b, ?_, mkFrame_ge b, mkFrame_le b⟩, by decide, by decide,
    fun _ _ h => mkFrame_injective h, ?_⟩
  · rw [toNat_mkFrame]; omega
  · rw [validNumbers_perm.length_eq, List.length_map, List.length_range]

end

/-!
PROOFS. The codec's functions: the parity bit as an exclusive or, the check, and the layout of a frame.
-/

namespace Sys2Proof

open Sys2Proof.Machine

/-! ## The parity bit -/

/-- On single bits, addition is the exclusive or. -/
theorem bit_add_eq_xor (x y : Bit) : x + y = x ^^^ y := by revert x y; decide

/-- A bit that differs from another is its complement. -/
theorem bit_eq_not_of_ne {x y : Bit} (h : x ≠ y) : x = ~~~y := by revert x y; decide

/-- No bit is its own complement. -/
theorem bit_not_ne (x : Bit) : ~~~x ≠ x := by revert x; decide

@[simp] theorem bitAt_xor {w : Nat} (v u : BitVec w) (i : Nat) : bitAt (v ^^^ u) i = bitAt v i ^^^ bitAt u i := by
  simp [bitAt, BitVec.ofBool_xor_ofBool]

/-- The lowest bit of the count of set bits is the exclusive or of the eight bits. -/
theorem ofNat_popcount (b : Byte) : BitVec.ofNat 1 (popcount b) =
    bitAt b 0 ^^^ bitAt b 1 ^^^ bitAt b 2 ^^^ bitAt b 3 ^^^ bitAt b 4 ^^^ bitAt b 5 ^^^ bitAt b 6 ^^^ bitAt b 7 := by
  simp only [popcount, BitVec.ofNat_add, BitVec.ofNat_toNat, BitVec.setWidth_eq, bit_add_eq_xor]

/-- The parity bit is the complement of the count's lowest bit (R111). -/
theorem parityOf_eq_not_ofNat_popcount (b : Byte) : parityOf b = ~~~BitVec.ofNat 1 (popcount b) := by
  have hmod : BitVec.ofNat 1 (popcount b) = BitVec.ofNat 1 (popcount b % 2) := BitVec.eq_of_toNat_eq (by simp)
  rw [hmod, parityOf]
  obtain heven | hodd := Nat.mod_two_eq_zero_or_one (popcount b)
  · simp [heven]
  · simp [hodd]

/-- The count's lowest bit is additive: flipping the bits of a mask flips it once for every bit of the mask. -/
theorem ofNat_popcount_xor (b m : Byte) :
    BitVec.ofNat 1 (popcount (b ^^^ m)) = BitVec.ofNat 1 (popcount b) ^^^ BitVec.ofNat 1 (popcount m) := by
  simp only [ofNat_popcount, bitAt_xor]
  ac_rfl

/-- Data and parity bit hold an odd number of ones for the byte's own parity bit, and for no other bit (R112 (a), R113). -/
theorem popcount_add_odd_iff (b : Byte) (r : Bit) : (popcount b + r.toNat) % 2 = 1 ↔ r = parityOf b := by
  unfold parityOf
  obtain rfl | rfl := bit_cases r <;> split <;> simp <;> omega

/-- Flipping the bits of a mask flips the parity bit exactly for a mask whose own parity bit is 0 (R112 (b), generalized). -/
theorem parityOf_xor (b m : Byte) : parityOf (b ^^^ m) = parityOf b ^^^ ~~~parityOf m := by
  simp only [parityOf_eq_not_ofNat_popcount, ofNat_popcount_xor, BitVec.not_not, BitVec.not_xor_left]

/-- A mask over data and parity that flips an even number of the nine bits flips the parity bit by the complement of its data
mask's own parity bit. -/
theorem eq_not_parityOf_of_even {m : Byte} {q : Bit} (h : (popcount m + q.toNat) % 2 = 0) : q = ~~~parityOf m := by
  refine bit_eq_not_of_ne fun heq => ?_
  have hodd := (popcount_add_odd_iff m q).2 heq
  omega

/-- The check does not see an even number of flips among the nine bits data and parity (R113). -/
theorem chkParity_xor_of_even {m : Byte} {q : Bit} (h : (popcount m + q.toNat) % 2 = 0) (b : Byte) (r : Bit) :
    chkParity (b ^^^ m) (r ^^^ q) = chkParity b r := by
  rw [Bool.eq_iff_iff, chkParity_eq_true, chkParity_eq_true, parityOf_xor, ← eq_not_parityOf_of_even h,
    BitVec.xor_left_inj]

/-- The check rejects the complement of the parity bit (R113). -/
theorem chkParity_not_parityOf (b : Byte) : chkParity b (~~~parityOf b) = false :=
  Bool.eq_false_iff.2 fun h => bit_not_ne _ (chkParity_eq_true.1 h)

/-! ## The layout of a frame -/

/-- The data field holds the bits at positions 1 to 8 of a frame, least significant first (R80). -/
theorem bitAt_unframe (f : Frame) {i : Nat} (h : i < 8) : bitAt (unframe f) i = frameBit f (i + 1) := by
  simp [unframe, frameBit, bitAt, h, Nat.add_comm]

/-- The data bits of a frame read back one by one (R114). -/
theorem frameBit_mkFrame_data (b : Byte) {i : Nat} (h : i < 8) : frameBit (mkFrame b) (i + 1) = bitAt b i := by
  rw [← bitAt_unframe _ h, mkFrame, unframe_frameOf]

/-- UNFRAME undoes MKFRAME (R116). -/
@[simp] theorem unframe_mkFrame (b : Byte) : unframe (mkFrame b) = b := unframe_frameOf (parityOf b) b

/-- A valid frame is one whose fixed bits and parity bit are in place (R116). -/
theorem Frame.valid_iff (f : Frame) :
    f.valid = true ↔ frameBit f 0 = 0#1 ∧ frameBit f 10 = 1#1 ∧ frameBit f 9 = parityOf (unframe f) := by
  simp only [Frame.valid, Bool.and_eq_true, decide_eq_true_eq, and_assoc]

/-- Rebuilding a frame from its data field gives it back exactly for the valid frames (R116). -/
theorem mkFrame_unframe_eq_iff_valid (f : Frame) : mkFrame (unframe f) = f ↔ f.valid = true := by
  rw [Frame.valid_iff_exists_mkFrame]
  constructor
  · exact fun h => ⟨unframe f, h⟩
  · rintro ⟨b, rfl⟩
    rw [unframe_mkFrame]

/-! ## The functions as operations -/

/-- PARITY writes no field: the result goes to the trace (R110, R111). -/
theorem exec_parity (b : Byte) (s : State) :
    exec (.parity b) s = .next { s with trace := s.trace ++ [.bitResult (parityOf b)] } := rfl

/-- CHKPAR writes no field (R110, R113). -/
theorem exec_chkpar (b : Byte) (r : Bit) (s : State) :
    exec (.chkpar b r) s = .next { s with trace := s.trace ++ [.boolResult (chkParity b r)] } := rfl

/-- MKFRAME writes no field (R110, R114). -/
theorem exec_mkframe (b : Byte) (s : State) :
    exec (.mkframe b) s = .next { s with trace := s.trace ++ [.frameResult (mkFrame b)] } := rfl

end Sys2Proof

section
open Sys2Proof

/-- Settles O31: the parity bit by its definition, and as the complement of the count's lowest bit. -/
theorem parityIsOdd : Obligations.ParityIsOdd := by
  refine fun b s => ⟨rfl, parityOf b, exec_parity b s, fun heven => if_pos heven, fun hodd => if_neg (by omega), ?_⟩
  rw [parityOf_eq_not_ofNat_popcount, ofNat_popcount]

/-- Settles O32: the accepted bit is the one that makes the nine bits odd, and an even mask moves both sides alike. -/
theorem chkparAcceptsThePairingBit : Obligations.ChkparAcceptsThePairingBit := fun b r s =>
  ⟨rfl, chkParity b r, exec_chkpar b r s, chkParity_eq_true.trans (popcount_add_odd_iff b r).symm, chkParity_eq_true,
    chkParity_eq_true.2 rfl, chkParity_not_parityOf b, fun _ _ heven => chkParity_xor_of_even heven b r⟩

/-- Settles O33: the fields of the built frame read back, and its number. -/
theorem mkframeLaysOutTheFrame : Obligations.MkframeLaysOutTheFrame := fun b s =>
  ⟨rfl, mkFrame b, exec_mkframe b s, frameBit_frameOf_start _ b, fun _ hi => frameBit_mkFrame_data b hi,
    frameBit_frameOf_parity _ b, frameBit_frameOf_stop _ b, toNat_mkFrame b⟩

/-- Settles O35: the valid frames are the values of MKFRAME, and UNFRAME undoes it. -/
theorem unframeInvertsMkframe : Obligations.UnframeInvertsMkframe :=
  ⟨unframe_mkFrame, Frame.valid_iff, mkFrame_unframe_eq_iff_valid⟩

end

/-!
PROOFS. The receive machine: one equation for each branch of its operations, abort-read, and a run of data steps.
-/

namespace Sys2Proof

open Sys2Proof.Machine

/-! ## The store of a data bit -/

/-- The store of R85 writes the bit it names. -/
theorem bitAt_setBit_self (b : Byte) {i : Nat} (d : Bit) (hi : i < 8) : bitAt (setBit b i d) i = d := by
  rw [bitAt, getLsbD_setBit_self b i d hi]
  obtain rfl | rfl := bit_cases d <;> rfl

/-- The store of R85 keeps every other bit. -/
theorem bitAt_setBit_ne (b : Byte) {i j : Nat} (d : Bit) (hij : j ≠ i) : bitAt (setBit b i d) j = bitAt b j :=
  congrArg BitVec.ofBool (getLsbD_setBit_ne b i j d hij)

/-- Shifting a register down by one moves its bits 1 to 7, and the new bit comes in as bit 7 (R133). -/
theorem getLsbD_shiftIn (sh : Byte) (d : Bit) {j : Nat} (hj : j < 8) :
    (shiftIn sh d).getLsbD j = if j = 7 then d.getLsbD 0 else sh.getLsbD (j + 1) := by
  rw [shiftIn, BitVec.getLsbD_append, BitVec.getLsbD_extractLsb', Nat.add_comm 1 j]
  by_cases h7 : j = 7
  · simp [h7]
  · simp [h7, show j < 7 by omega]

/-- One shift after `n` data steps agrees with the indexed store of bit `n`, both seen through the register's `8 - n` places
not yet filled (R133). -/
theorem shiftIn_shiftLeft (acc : Byte) (d : Bit) {n : Nat} (hn : n < 8) :
    shiftIn (acc <<< (8 - n)) d = setBit acc n d <<< (7 - n) := by
  refine BitVec.eq_of_getLsbD_eq fun j hj => ?_
  rw [getLsbD_shiftIn _ _ hj, BitVec.getLsbD_shiftLeft, BitVec.getLsbD_shiftLeft]
  obtain h7 | ⟨h7, hempty⟩ | ⟨h7, hfilled⟩ : j = 7 ∨ (j ≠ 7 ∧ j < 7 - n) ∨ (j ≠ 7 ∧ ¬ j < 7 - n) := by omega
  · have hidx : j - (7 - n) = n := by omega
    rw [if_pos h7, hidx, getLsbD_setBit_self acc n d hn]
    simp [hj, show ¬ j < 7 - n by omega]
  · simp [h7, hempty, show j + 1 < 8 - n by omega]
  · have hidx : j + 1 - (8 - n) = j - (7 - n) := by omega
    rw [if_neg h7, getLsbD_setBit_ne acc n _ d (by omega), hidx]
    simp [hj, hfilled, show j + 1 < 8 by omega, show ¬ j + 1 < 8 - n by omega]

end Sys2Proof

namespace Sys2Proof.Machine

/-! ## Selection -/

/-- In READ mode the receive position selects (R88). -/
theorem selectEdge_read {s : State} (hm : s.mode = .read) : selectEdge s = edgeOpOf .read s.rxPos := by
  rw [selectEdge, livePos_read hm, hm]

/-- The dispatch table's data positions (R88). -/
theorem edgeOpOf_read_data {p : Nat} (h1 : 1 ≤ p) (h8 : p ≤ 8) : edgeOpOf .read p = .rxData p := by
  simp [edgeOpOf, show p ≠ 0 by omega, h8]

/-! ## The receive operations, branch by branch -/

/-- RX.START on a start bit (R126). -/
theorem exec_rxStart_zero (k : LineFault) (s : State) : exec (.rxStart 0#1 k) s = .next { s with rxPos := 1 } := by
  show Host.Outcome.next { s with rxPos := s.cfg.storePos 1 } = _
  rw [Config.storePos_of_lt _ (by decide)]

/-- RX.START on a 1 (R126). -/
theorem exec_rxStart_one (k : LineFault) (s : State) :
    exec (.rxStart 1#1 k) s = .next (abortRead .frameStart k s) := rfl

/-- RX.DATA at the positions of R127. -/
theorem exec_rxData {p : Nat} (h1 : 1 ≤ p) (h8 : p ≤ 8) (d : Bit) (s : State) :
    exec (.rxData p d) s = .next { s with rxAcc := setBit s.rxAcc (p - 1) d, rxPos := p + 1 } := by
  show execRxData p d s = _
  rw [execRxData, if_pos (by simp [isDataPos, h1, h8]), Config.storePos_of_lt _ (by omega)]

/-- RX.PARITY on the accumulator's own parity bit (R128). -/
theorem exec_rxParity_match {d : Bit} {s : State} (h : chkParity s.rxAcc d = true) (k : LineFault) :
    exec (.rxParity d k) s = .next { s with rxPos := 10 } := by
  show execRxParity d k s = _
  rw [execRxParity, if_pos h, Config.storePos_of_lt _ (by decide)]

/-- RX.PARITY on the other bit (R128). -/
theorem exec_rxParity_mismatch {d : Bit} {s : State} (h : chkParity s.rxAcc d = false) (k : LineFault) :
    exec (.rxParity d k) s = .next (abortRead .parity k s) := if_neg (Bool.eq_false_iff.1 h)

/-- RX.STOP on a stop bit: the delivery, then the receive state cleared (R129). -/
theorem exec_rxStop_one (k : LineFault) (s : State) :
    exec (.rxStop 1#1 k) s = andThen (deliver s.rxAcc s) fun t => .next (clearRx t) := rfl

/-- RX.STOP on a 0 (R129). -/
theorem exec_rxStop_zero (k : LineFault) (s : State) :
    exec (.rxStop 0#1 k) s = .next (abortRead .frameStop k s) := rfl

/-- A callback that is set and enabled takes the byte (R171). -/
theorem deliver_callback {s : State} {f : CallbackRef} (he : s.cbEnabled = true) (hc : s.callback = some f) (b : Byte) :
    deliver b s = .next (s.emit (.delivered (.callback f) b)) := by
  simp only [deliver, he, hc]

/-- Without such a callback the byte goes to the inbox (R171). -/
theorem deliver_inbox {s : State} (h : s.cbEnabled = false ∨ s.callback = none) (b : Byte) :
    deliver b s = appendInbox b s := by
  obtain ⟨f, he, hc, -⟩ | ⟨-, hd⟩ := deliver_cases b s
  · simp [he, hc] at h
  · exact hd

/-! ## Abort-read -/

/-- What an initiation has done to the lines before its step `k` fails (R142, R143). -/
def actionsBefore (k : LineFault) (s : State) : List Output :=
  match k with
  | .none => initiationActions s
  | .step4 => []
  | .step5 => [.line .clkLow, .line (.hold s.cfg.tInhibitUs)]
  | .step7 => [.line .clkLow, .line (.hold s.cfg.tInhibitUs), .line (.dataSet 0#1)]

/-- The state an initiation leaves when its step `k` fails: READ mode with the gate taken; only step 7 comes after the receive
state has been cleared (R142). -/
def writeFailed (b : Byte) (k : LineFault) (s : State) : State :=
  { s with
    mode := .read
    txPos := 0
    txOutcome := .inactive
    gate := .taken
    txFrame := mkFrame b
    rxPos := if k = .step7 then 0 else s.rxPos
    rxAcc := if k = .step7 then 0#8 else s.rxAcc
    clkDrv := Config.freeClkDrv s.draws
    dataDrv := Config.freeDataDrv s.draws
    draws := s.draws + 1
    trace := s.trace ++ actionsBefore k s }

/-- A step fails where the parameter is on and the environment names one (R142). -/
theorem effectiveFault_on {s : State} (h : s.cfg.lineCfgCanFail = true) (k : LineFault) : effectiveFault s k = k :=
  if_pos h

/-- An initiation that takes the gate and fails at step 4, 5 or 7 (R142). -/
theorem initiate_failed (b : Byte) {k : LineFault} {s : State} (hg : s.gate = .available)
    (hcfg : s.cfg.lineCfgCanFail = true) (hk : k ≠ .none) : initiate b k s = (writeFailed b k s, .eConfig) := by
  obtain ⟨ht, -⟩ | ⟨-, hrun⟩ := initiate_cases b k s
  · simp [hg] at ht
  rw [hrun, effectiveFault_on hcfg]
  cases k with
  | none => exact absurd rfl hk
  | step4 => simp [runInitiation, failInitiation, State.drew, writeFailed, actionsBefore, loadWrite, State.takeGate]
  | step5 =>
    simp [runInitiation, failInitiation, State.drew, writeFailed, actionsBefore, loadWrite, State.takeGate, inhibit,
      hold, clkLow, State.emit]
  | step7 =>
    simp [runInitiation, failInitiation, State.drew, writeFailed, actionsBefore, loadWrite, State.takeGate, inhibit,
      hold, clkLow, State.emit, advanceToFirstBit, startBitStep, dataSet, clearRx]

/-- The frame of the resend command (R86). -/
theorem mkFrame_resendByte : mkFrame resendByte = 0x5FC#11 := by decide

/-- An abort that takes the gate starts the write of the resend command (R131). -/
theorem abortRead_started (e : ErrorCond) {k : LineFault} {s : State} (hg : s.gate = .available)
    (hk : s.cfg.lineCfgCanFail = false ∨ k = .none) : abortRead e k s =
      { writeStarted resendByte s with trace := s.trace ++ [.raised e] ++ initiationActions s } := by
  have hinit := initiate_started resendByte (s := clearRx (s.emit (.raised e))) hg (effectiveFault_none hk)
  rw [abortRead, hinit]
  rfl

/-- An abort that meets the gate taken raises its error and clears the receive state (R131). -/
theorem abortRead_busy (e : ErrorCond) (k : LineFault) {s : State} (hg : s.gate = .taken) :
    abortRead e k s = clearRx (s.emit (.raised e)) :=
  congrArg Prod.fst (initiate_busy (s := clearRx (s.emit (.raised e))) hg resendByte k)

/-- An abort whose initiation fails (R131, R142). -/
theorem abortRead_failed (e : ErrorCond) {k : LineFault} {s : State} (hg : s.gate = .available)
    (hcfg : s.cfg.lineCfgCanFail = true) (hk : k ≠ .none) :
    abortRead e k s = writeFailed resendByte k (clearRx (s.emit (.raised e))) :=
  congrArg Prod.fst (initiate_failed resendByte (s := clearRx (s.emit (.raised e))) hg hcfg hk)

/-! ## A run of data steps -/

/-- One data step at the state's own position: the bit stored at its index, the position advanced (R127). -/
def storeDataBit (s : State) (d : Bit) : State :=
  { s with rxAcc := setBit s.rxAcc (s.rxPos - 1) d, rxPos := s.rxPos + 1 }

/-- An edge at a data position is one data step (R127). -/
theorem edge_data {s : State} (hm : s.mode = .read) (hc : s.clkDrv = .released) (hd : s.dataDrv ≠ .low)
    (h1 : 1 ≤ s.rxPos) (h8 : s.rxPos ≤ 8) (d : Bit) (k : LineFault) : edge d k s = .next (storeDataBit s d) := by
  rw [edge_read hm hc hd, edgeOpOf_read_data h1 h8, runEdgeOp_eq_exec]
  exact exec_rxData h1 h8 d s

/-- A run of edges that stays at data positions is a run of data steps. -/
theorem edges_data (ds : List Bit) {s : State} (hm : s.mode = .read) (hc : s.clkDrv = .released)
    (hd : s.dataDrv ≠ .low) (h1 : 1 ≤ s.rxPos) (h9 : s.rxPos + ds.length ≤ 9) :
    edges ds s = .next (ds.foldl storeDataBit s) := by
  induction ds generalizing s with
  | nil => rfl
  | cons d ds ih =>
    rw [List.length_cons] at h9
    rw [edges_cons, edge_data hm hc hd h1 (by omega), andThen_next, List.foldl_cons]
    exact ih hm hc hd (Nat.le_add_left 1 _) (show s.rxPos + 1 + ds.length ≤ 9 by omega)

/-- A run of data steps advances the position by its length. -/
theorem foldl_storeDataBit_rxPos (ds : List Bit) (s : State) :
    (ds.foldl storeDataBit s).rxPos = s.rxPos + ds.length := by
  induction ds generalizing s with
  | nil => rfl
  | cons d ds ih =>
    rw [List.foldl_cons, ih, List.length_cons]
    show s.rxPos + 1 + ds.length = _
    omega

/-- A shift register that agrees with the accumulator before a run of data steps agrees with it afterwards (R133). -/
theorem foldl_shiftIn_eq (ds : List Bit) {s : State} (h1 : 1 ≤ s.rxPos) (h9 : s.rxPos + ds.length ≤ 9) :
    ds.foldl shiftIn (s.rxAcc <<< (9 - s.rxPos)) =
      (ds.foldl storeDataBit s).rxAcc <<< (9 - (s.rxPos + ds.length)) := by
  induction ds generalizing s with
  | nil => rfl
  | cons d ds ih =>
    rw [List.length_cons] at h9
    have hstep : shiftIn (s.rxAcc <<< (9 - s.rxPos)) d =
        (storeDataBit s d).rxAcc <<< (9 - (storeDataBit s d).rxPos) := by
      have h := shiftIn_shiftLeft s.rxAcc d (show s.rxPos - 1 < 8 by omega)
      rwa [show 8 - (s.rxPos - 1) = 9 - s.rxPos by omega, show 7 - (s.rxPos - 1) = 9 - (s.rxPos + 1) by omega] at h
    have hpos : (storeDataBit s d).rxPos + ds.length = s.rxPos + (d :: ds).length := by
      rw [List.length_cons]
      show s.rxPos + 1 + ds.length = _
      omega
    rw [List.foldl_cons, List.foldl_cons, hstep,
      ih (Nat.le_add_left 1 _) (show s.rxPos + 1 + ds.length ≤ 9 by omega), hpos]

end Sys2Proof.Machine

section
open Sys2Proof Sys2Proof.Machine

/-- Settles O11: the store of R85 at index `p - 1`. -/
theorem rxDataStoresOneBit : Obligations.RxDataStoresOneBit := fun p d s h1 h8 => by
  refine ⟨fun hm hp => ?_, ?_, setBit s.rxAcc (p - 1) d, exec_rxData h1 h8 d s,
    bitAt_setBit_self _ d (by omega), fun i hi => bitAt_setBit_ne _ d hi⟩
  · rw [selectEdge_read hm, hp, edgeOpOf_read_data h1 h8]
  · show (keyOf 0#3 0#1 p).toNat = p
    rw [toNat_keyOf _ (by omega)]
    simp

/-- Settles O12: the check accepts the bit that makes the nine bits odd, and no other. -/
theorem rxParityAcceptsOddTotals : Obligations.RxParityAcceptsOddTotals := fun d k s => by
  have hcheck : chkParity s.rxAcc d = true ↔ (popcount s.rxAcc + d.toNat) % 2 = 1 :=
    chkParity_eq_true.trans (popcount_add_odd_iff s.rxAcc d).symm
  refine ⟨fun hm hp => ?_, rfl, fun hodd => exec_rxParity_match (hcheck.2 hodd) k,
    fun heven => exec_rxParity_mismatch ?_ k⟩
  · rw [selectEdge_read hm, hp]
    rfl
  · refine Bool.eq_false_iff.2 fun htrue => ?_
    have hodd := hcheck.1 htrue
    omega

/-- Settles O13: the two ends of a delivery, and the abort. -/
theorem rxStopDeliversOrAborts : Obligations.RxStopDeliversOrAborts := fun k s => by
  refine ⟨fun hm hp => ?_, fun _ => rfl, fun f he hc => ?_, fun hcb hroom => ?_, exec_rxStop_zero k s⟩
  · rw [selectEdge_read hm, hp]
    rfl
  · rw [exec_rxStop_one, deliver_callback he hc]
    rfl
  · rw [exec_rxStop_one, deliver_inbox hcb, appendInbox_room (inboxIsFull_of_room hroom)]
    rfl

/-- Settles O15: the three ends of the resend's initiation, whose frame is 0x5FC. -/
theorem abortReadStartsTheResend : Obligations.AbortReadStartsTheResend := fun e k s => by
  refine ⟨fun hg hk => ?_, abortRead_busy e k, fun hg hcfg hk => ?_⟩
  · rw [abortRead_started e hg hk, ← mkFrame_resendByte]
    rfl
  · rw [abortRead_failed e hg hcfg hk]
    exact ⟨rfl, rfl, ite_self 0, ite_self 0#8, rfl, rfl, mkFrame_resendByte⟩

/-- Settles O60: by induction on the data steps, from the register and the accumulator both 0. -/
theorem shiftRegisterFormAgrees : Obligations.ShiftRegisterFormAgrees := by
  refine ⟨fun ds s hlen hm hpos hacc hc hd => ⟨ds.foldl storeDataBit s, ?_, ?_, ?_⟩, fun f p => ?_⟩
  · exact edges_data ds hm hc hd (by omega) (by omega)
  · rw [foldl_storeDataBit_rxPos, hpos]
  · have hsh := foldl_shiftIn_eq ds (s := s) (by omega) (by omega)
    rwa [hacc, hpos, BitVec.zero_shiftLeft, show 9 - (1 + ds.length) = 8 - ds.length by omega] at hsh
  · simp [frameBit, bitAt]

/-- Settles O10: the two levels of a start bit. -/
theorem rxStartTakesAStartBitOrAborts : Obligations.RxStartTakesAStartBitOrAborts := fun k s => by
  refine ⟨fun hm hp => ?_, fun _ => rfl, exec_rxStart_zero k s, exec_rxStart_one k s⟩
  rw [selectEdge_read hm, hp]
  rfl

end

/-!
PROOFS. The transmit machine: the selection of a write's operations, the send-bit step, and one equation for each operation.
-/

namespace Sys2Proof.Machine

/-! ## Selection in WRITE mode -/

/-- In WRITE mode the transmit position selects (R88). -/
theorem selectEdge_write {s : State} {p : Nat} (hm : s.mode = .write) (hp : s.txPos = p) :
    selectEdge s = edgeOpOf .write p := by
  rw [selectEdge, livePos_write hm, hm, hp]

/-- The dispatch table's send-bit positions (R88). -/
theorem edgeOpOf_write_sendBit {p : Nat} (h1 : 1 ≤ p) (h9 : p ≤ 9) : edgeOpOf .write p = .txBit p := by
  simp [edgeOpOf, show p ≠ 0 by omega, h9]

/-! ## The transmit operations -/

/-- The send-bit step puts the frame's bit at the position on DATA (R147). -/
theorem sendBit_of_getLsbD {p : Nat} {s : State} {v : Bool} (h : s.txFrame.getLsbD p = v) :
    sendBit p s = dataSet (BitVec.ofBool v) s := by
  rw [sendBit, frameBit, bitAt, h]

/-- TX.START runs an initiation and reports its status (R141). -/
theorem exec_txStart (b : Byte) (k : LineFault) (s : State) :
    exec (.txStart b k) s = .next ((initiate b k s).1.emit (.status (initiate b k s).2)) := rfl

/-- TX.IGNORE is a no-op (R144). -/
theorem exec_txIgnore (s : State) : exec .txIgnore s = .next s := rfl

/-- TX.BIT at the positions of R145. -/
theorem exec_txBit {p : Nat} (h1 : 1 ≤ p) (h9 : p ≤ 9) (s : State) :
    exec (.txBit p) s = .next { sendBit p s with txPos := p + 1 } := by
  show execTxBit p s = _
  rw [execTxBit, if_pos (by simp [isSendBitPos, h1, h9]), Config.storePos_of_lt _ (by omega)]

/-- TX.STOP sends the stop bit and releases DATA (R146). -/
theorem exec_txStop (s : State) :
    exec .txStop s = .next { dataRelease (sendBit 10 s) with txPos := 11 } := by
  show Host.Outcome.next { dataRelease (sendBit 10 s) with txPos := s.cfg.storePos 11 } = _
  rw [Config.storePos_of_lt _ (by decide)]

/-- Stop bit and release, one after the other, leave DATA released and both actions in the trace (R146, R147). -/
theorem dataRelease_sendBit (p : Nat) (s : State) : dataRelease (sendBit p s) =
    { s with
      dataDrv := .released
      trace := s.trace ++ [.line (.dataSet (frameBit s.txFrame p)), .line .dataRelease] } := by
  simp [dataRelease, sendBit, dataSet, State.emit]

/-- TX.ACK ends the write (R148). -/
theorem exec_txAck (d : Bit) (s : State) : exec (.txAck d) s = .next (finishWrite d s) := rfl

end Sys2Proof.Machine

section
open Sys2Proof Sys2Proof.Machine

/-- Settles O16: the gate decides between an initiation that starts and one that is busy. -/
theorem txStartTakesTheGateOrIsBusy : Obligations.TxStartTakesTheGateOrIsBusy := fun b k s => by
  refine ⟨(Laws.EventCode.txStart b k).2 rfl, fun hg hk => ?_, fun hg => ?_⟩
  · rw [exec_txStart, initiate_started b hg (effectiveFault_none hk)]
    rfl
  · rw [exec_txStart, initiate_busy hg]
    rfl

/-- Settles O20: the send-bit step at the two values of the frame bit. -/
theorem txBitDrivesItsFrameBit : Obligations.TxBitDrivesItsFrameBit := fun p s h1 h9 => by
  refine ⟨fun hm hp => ?_, ?_, fun hbit => ?_, fun hbit => ?_⟩
  · rw [selectEdge_write hm hp, edgeOpOf_write_sendBit h1 h9]
  · exact toNat_keyOf 1#1 (by omega)
  · rw [exec_txBit h1 h9, sendBit_of_getLsbD hbit]
    rfl
  · rw [exec_txBit h1 h9, sendBit_of_getLsbD hbit]
    rfl

/-- Settles O19: position 0 of WRITE mode. -/
theorem txIgnoreDoesNothing : Obligations.TxIgnoreDoesNothing := fun s =>
  ⟨selectEdge_write, rfl, exec_txIgnore s⟩

/-- Settles O21: the stop bit is bit 10 of the frame, a fixed bit of R27. -/
theorem txStopSendsAndReleases : Obligations.TxStopSendsAndReleases := fun s => by
  refine ⟨selectEdge_write, rfl, ?_, fun ⟨_, hstop⟩ => hstop⟩
  rw [exec_txStop, dataRelease_sendBit]

/-- Settles O22: the two levels of an acknowledgment. -/
theorem txAckFinishesTheWrite : Obligations.TxAckFinishesTheWrite := fun s =>
  ⟨selectEdge_write, fun _ => rfl, exec_txAck 0#1 s, exec_txAck 1#1 s⟩

end

/-!
PROOFS. The facade requests of the environment: the key of CONFIGURE and one equation for each kind of its argument.
-/

namespace Sys2Proof.Machine

/-- The key of CONFIGURE does not depend on its argument, which goes into the two operand bytes (R89, R175). -/
theorem encode_configure_key (f : Option CallbackRef) : (encode (.configure f)).b0 = subKey 5#3 0#5 := by
  cases f with
  | none => rfl
  | some g => rfl

/-- CONFIGURE with the null callback only reports the invalid argument (R175). -/
theorem exec_configure_none (s : State) : exec (.configure none) s = .next (s.emit (.status .eInval)) := rfl

/-- CONFIGURE with a callback registers it and reports success (R175). -/
theorem exec_configure_some (f : CallbackRef) (s : State) :
    exec (.configure (some f)) s = .next (State.emit { s with callback := some f } (.status .ok)) := rfl

end Sys2Proof.Machine

section
open Sys2Proof Sys2Proof.Machine

/-- Settles O28: the null callback and a callback to register. -/
theorem configureRegistersACallback : Obligations.ConfigureRegistersACallback := fun s =>
  ⟨encode_configure_key, exec_configure_none s, fun f => exec_configure_some f s⟩

end

/-!
PROOFS. Encoding: the fields of a key and of a wire word read back, and the two decoders on the words they come from.
-/

namespace Sys2Proof

open Sys2Proof.Machine

/-! ## Keys -/

/-- A key is its event code with its sub-code (R89). -/
theorem subKey_fields (key : Byte) : subKey (keyEv key) (keySub key) = key :=
  (BitVec.extractLsb'_append_extractLsb'_eq_extractLsb' (by omega)).trans BitVec.extractLsb'_eq_self

/-- A key is its event code, mode and position (R89). -/
theorem keyOf_fields (key : Byte) : keyOf (keyEv key) (keyMode key).bit (keyPos key) = key := by
  have hmode (b : Bit) : (Mode.ofBit b).bit = b := by revert b; decide
  rw [keyMode, hmode, keyOf, keyPos, BitVec.ofNat_toNat, BitVec.setWidth_eq, keyEv,
    BitVec.extractLsb'_append_extractLsb'_eq_extractLsb' (by omega),
    BitVec.extractLsb'_append_extractLsb'_eq_extractLsb' (by omega), BitVec.extractLsb'_eq_self]

/-- The sub-code of a key built from it. -/
theorem keySub_subKey (ev : BitVec 3) (sub : BitVec 5) : keySub (subKey ev sub) = sub :=
  BitVec.extractLsb'_append_eq_right

/-- The key of an edge names the operation the dispatch table selects (R88, R89). -/
theorem decodeKey_keyOf (m : Mode) {p : Nat} (hp : p < 16) (b1 b2 : Byte) : decodeKey (keyOf 0#3 m.bit p) b1 b2 =
    .ok ((edgeOpOf m p).toInstr (b1.extractLsb' 0 1) (.ofCode (b1.extractLsb' 2 2))) := by
  have hev : (keyEv (keyOf 0#3 m.bit p)).toNat = 0 := by rw [Laws.EventCode.keyEv_keyOf]; rfl
  simp only [decodeKey, hev, keyMode_keyOf, keyPos_keyOf _ hp]

/-- The positions of R92 that a key can name select nothing. -/
theorem edgeOpOf_illegal {m : Mode} {p : Nat} (h : isIllegalPos m p = true) : p < 16 ∧ edgeOpOf m p = .illegal m p := by
  cases m with
  | read =>
    obtain ⟨h11, h15⟩ : 11 ≤ p ∧ p ≤ 15 := by simpa [isIllegalPos] using h
    exact ⟨by omega, by grind [edgeOpOf]⟩
  | write =>
    obtain ⟨h12, h15⟩ : 12 ≤ p ∧ p ≤ 15 := by simpa [isIllegalPos] using h
    exact ⟨by omega, by grind [edgeOpOf]⟩

/-- The key of a selected edge operation is the one that selects it, in format K8. -/
theorem encode_edgeOpOf (m : Mode) {p : Nat} (hp : p < 16) (d : Bit) (k : LineFault) :
    (encode ((edgeOpOf m p).toInstr d k)).fmt = .k8 ∧
      (encode ((edgeOpOf m p).toInstr d k)).b0 = keyOf 0#3 m.bit p := by
  have hall : ∀ q : Fin 16, ∀ d : Bit, (encode ((edgeOpOf m q.1).toInstr d k)).fmt = .k8 ∧
      (encode ((edgeOpOf m q.1).toInstr d k)).b0 = keyOf 0#3 m.bit q.1 := by
    cases m <;> cases k <;> decide
  exact hall ⟨p, hp⟩ d

/-- The level of an edge's operand byte reads back. -/
@[simp] theorem edgeByte_level (c d : Bit) (k : LineFault) : (edgeByte c d k).extractLsb' 0 1 = d := by
  revert c d; cases k <;> decide

/-- The failing step of an edge's operand byte reads back. -/
@[simp] theorem edgeByte_fault (c d : Bit) (k : LineFault) :
    LineFault.ofCode ((edgeByte c d k).extractLsb' 2 2) = k := by
  revert c d; cases k <;> decide

/-- An edge's word, with its level and failing step in the operand byte, names the operation selected (R88, R89). -/
theorem decode_edgeWord (m : Mode) {p : Nat} (hp : p < 16) (c d : Bit) (k : LineFault) :
    decode (k8Word (keyOf 0#3 m.bit p) (edgeByte c d k) 0#8) = .ok ((edgeOpOf m p).toInstr d k) := by
  show decodeKey (keyOf 0#3 m.bit p) (edgeByte c d k) 0#8 = _
  rw [decodeKey_keyOf m hp, edgeByte_level, edgeByte_fault]

/-! ## Wire words -/

/-- The frame in the low eleven bits of a wire word reads back. -/
theorem frame_of_wireWord (fmt : Format) (top : Bit) (f : Frame) :
    ((wireWord fmt top f).b1.extractLsb' 0 3 ++ (wireWord fmt top f).b0 : BitVec 11) = f := by
  simp only [wireWord]
  rw [BitVec.extractLsb'_append_eq_right, BitVec.extractLsb'_append_extractLsb'_eq_extractLsb' (by omega),
    BitVec.extractLsb'_eq_self]

/-- The bits of a wire word above its frame are the one given to it and zeros. -/
theorem wireWord_above (fmt : Format) (top : Bit) (f : Frame) :
    (wireWord fmt top f).b1.extractLsb' 3 5 = (0#4 ++ top : BitVec 5) := by
  simp only [wireWord]
  rw [BitVec.extractLsb'_append_eq_left]

/-- A word of twelve bits at most is a wire word. -/
theorem eq_wireWord (fmt : Format) {b0 b1 b2 : Byte} (h2 : b2 = 0#8) (h1 : b1.extractLsb' 4 4 = 0#4) :
    (⟨fmt, b0, b1, b2⟩ : OpWord) =
      wireWord fmt (b1.extractLsb' 3 1) (b1.extractLsb' 0 3 ++ b0 : BitVec 11) := by
  have hlow : (b1.extractLsb' 0 3 ++ b0 : BitVec 11).extractLsb' 0 8 = b0 := BitVec.extractLsb'_append_eq_right
  have hhigh : (b1.extractLsb' 0 3 ++ b0 : BitVec 11).extractLsb' 8 3 = b1.extractLsb' 0 3 :=
    BitVec.extractLsb'_append_eq_left
  have hb1 : ((0#4 ++ b1.extractLsb' 3 1) ++ b1.extractLsb' 0 3 : BitVec 8) = b1 := by
    rw [← h1, BitVec.extractLsb'_append_extractLsb'_eq_extractLsb' (by omega),
      BitVec.extractLsb'_append_extractLsb'_eq_extractLsb' (by omega), BitVec.extractLsb'_eq_self]
  rw [wireWord, hlow, hhigh, hb1, h2]

/-- The eleven-bit decoder on a wire word: the two fixed bits are looked at, the parity bit is not (R80). -/
theorem decode_wireWord_f11 (f : Frame) : decode (wireWord .f11 0#1 f) =
    if frameBit f 0 ≠ 0#1 then .error .startBitNotZero
    else if frameBit f 10 ≠ 1#1 then .error .stopBitNotOne
    else .ok (.frame11 (frameBit f 9) (unframe f)) := by
  show decodeFrame _ _ _ = _
  simp only [decodeFrame, frame_of_wireWord, wireWord_above]
  exact if_neg (not_or.2 ⟨not_not.2 rfl, by decide⟩)

/-- The twelve-bit decoder on a wire word: a valid frame, with the bit above it the acknowledgment level (R82). -/
theorem decode_wireWord_f12 (a : Bit) (f : Frame) : decode (wireWord .f12 a f) =
    if frameBit f 0 ≠ 0#1 then .error .startBitNotZero
    else if frameBit f 10 ≠ 1#1 then .error .stopBitNotOne
    else if frameBit f 9 ≠ parityOf (unframe f) then .error .exchangeParityWrong
    else .ok (.exchange12 a (unframe f)) := by
  have hfit : (wireWord .f12 a f).b1.extractLsb' 4 4 = 0#4 := by
    show ((0#4 ++ a) ++ f.extractLsb' 8 3 : BitVec 8).extractLsb' 4 4 = 0#4
    generalize f.extractLsb' 8 3 = g
    revert a g; decide
  have hack : bitAt (wireWord .f12 a f).b1 3 = a := by
    show bitAt ((0#4 ++ a) ++ f.extractLsb' 8 3 : BitVec 8) 3 = a
    generalize f.extractLsb' 8 3 = g
    clear hfit; revert a g; decide
  show decodeExchange _ _ _ = _
  simp only [decodeExchange, frame_of_wireWord, hfit, hack]
  exact if_neg (not_or.2 ⟨not_not.2 rfl, not_not.2 rfl⟩)

/-- What the eleven-bit decoder accepts is a wire word with the two fixed bits in place. -/
theorem decodeFrame_eq_ok {b0 b1 b2 : Byte} {i : Instr} (h : decodeFrame b0 b1 b2 = .ok i) :
    ∃ f, (⟨.f11, b0, b1, b2⟩ : OpWord) = wireWord .f11 0#1 f ∧ frameBit f 0 = 0#1 ∧ frameBit f 10 = 1#1 ∧
      i = .frame11 (frameBit f 9) (unframe f) := by
  have hword : b2 = 0#8 ∧ b1.extractLsb' 3 5 = 0#5 := by
    by_contra hbeyond
    rw [decodeFrame, if_pos (not_and_or.1 hbeyond)] at h
    cases h
  obtain ⟨h2, h1⟩ := hword
  have htop : b1.extractLsb' 3 1 = 0#1 ∧ b1.extractLsb' 4 4 = 0#4 := by
    clear h; revert b1; decide
  have hw := eq_wireWord .f11 (b0 := b0) h2 htop.2
  rw [htop.1] at hw
  refine ⟨_, hw, ?_⟩
  have hd : decode ⟨.f11, b0, b1, b2⟩ = .ok i := h
  rw [hw, decode_wireWord_f11] at hd
  split at hd
  · cases hd
  split at hd
  · cases hd
  next hstart hstop =>
  cases hd
  exact ⟨not_not.1 hstart, not_not.1 hstop, rfl⟩

/-- What the twelve-bit decoder accepts is a wire word that carries the frame of a byte. -/
theorem decodeExchange_eq_ok {b0 b1 b2 : Byte} {i : Instr} (h : decodeExchange b0 b1 b2 = .ok i) :
    ∃ a b, (⟨.f12, b0, b1, b2⟩ : OpWord) = wireWord .f12 a (mkFrame b) ∧ i = .exchange12 a b := by
  have hword : b2 = 0#8 ∧ b1.extractLsb' 4 4 = 0#4 := by
    by_contra hbeyond
    rw [decodeExchange, if_pos (not_and_or.1 hbeyond)] at h
    cases h
  obtain ⟨h2, h1⟩ := hword
  have hw := eq_wireWord .f12 (b0 := b0) h2 h1
  have hd : decode ⟨.f12, b0, b1, b2⟩ = .ok i := h
  rw [hw, decode_wireWord_f12] at hd
  split at hd
  · cases hd
  split at hd
  · cases hd
  split at hd
  · cases hd
  next hstart hstop hparity =>
  cases hd
  refine ⟨_, _, ?_, rfl⟩
  rw [hw, mkFrame, ← not_not.1 hparity, frameOf_fields (not_not.1 hstart) (not_not.1 hstop)]

/-- The number of a wire word, least significant byte first. -/
theorem wordOfNat_wire (fmt : Format) (a : Bit) (f : Frame) :
    wordOfNat fmt (2048 * a.toNat + f.toNat) = wireWord fmt a f := by
  have ha := a.isLt
  have hf := f.isLt
  simp only [wordOfNat, wireWord, OpWord.mk.injEq, true_and]
  refine ⟨BitVec.eq_of_toNat_eq ?_, BitVec.eq_of_toNat_eq ?_, BitVec.eq_of_toNat_eq ?_⟩
  · simp [BitVec.extractLsb'_toNat]
    omega
  · rw [BitVec.toNat_append, BitVec.toNat_append, ← Nat.shiftLeft_add_eq_or_of_lt (BitVec.isLt _),
      ← Nat.shiftLeft_add_eq_or_of_lt (BitVec.isLt _)]
    simp [BitVec.extractLsb'_toNat, Nat.shiftRight_eq_div_pow, Nat.shiftLeft_eq]
    omega
  · simp
    omega

/-! ## Round trips -/

/-- The word of an operation agrees with a key: format K8, the key's event code, and the whole key for the events whose low
five bits are read (R89). -/
def WordAgrees (i : Instr) (key : Byte) : Prop :=
  (encode i).fmt = .k8 ∧ keyEv (encode i).b0 = keyEv key ∧
    (keyEv key = 0#3 ∨ keyEv key = 5#3 ∨ keyEv key = 7#3 → (encode i).b0 = key)

/-- A word with the whole key agrees with it. -/
theorem wordAgrees_of_key {i : Instr} {key : Byte} (hfmt : (encode i).fmt = .k8) (hkey : (encode i).b0 = key) :
    WordAgrees i key := ⟨hfmt, congrArg keyEv hkey, fun _ => hkey⟩

/-- A word with the sub-code of a key agrees with it. -/
theorem wordAgrees_of_subKey {i : Instr} {key : Byte} {ev : BitVec 3} {sub : BitVec 5}
    (hev : (keyEv key).toNat = ev.toNat) (hsub : (keySub key).toNat = sub.toNat) (hfmt : (encode i).fmt = .k8)
    (hi : (encode i).b0 = subKey ev sub) : WordAgrees i key := by
  refine wordAgrees_of_key hfmt ?_
  rw [hi, ← BitVec.eq_of_toNat_eq hev, ← BitVec.eq_of_toNat_eq hsub, subKey_fields]

/-- A word with a key's event code agrees with it where the low five bits are not read. -/
theorem wordAgrees_of_event {i : Instr} {key : Byte} {ev : BitVec 3} (hev : (keyEv key).toNat = ev.toNat)
    (hno : ¬ (ev = 0#3 ∨ ev = 5#3 ∨ ev = 7#3)) (hi : Laws.EventCode.Statement i)
    (hexp : Laws.EventCode.expected i = (.k8, ev)) : WordAgrees i key := by
  obtain ⟨hfmt, hcode⟩ := hi
  rw [hexp] at hfmt hcode
  rw [WordAgrees, BitVec.eq_of_toNat_eq hev]
  exact ⟨hfmt, hcode hfmt, fun hread => absurd hread hno⟩

/-- The word of a decoded key's operation agrees with the key. -/
theorem wordAgrees_of_decodeKey {key b1 b2 : Byte} {i : Instr} (h : decodeKey key b1 b2 = .ok i) :
    WordAgrees i key := by
  unfold decodeKey at h
  split at h
  case h_1 hev =>
    cases h
    obtain ⟨hfmt, hb0⟩ := encode_edgeOpOf (keyMode key) (keyPos_lt key) (b1.extractLsb' 0 1) (.ofCode (b1.extractLsb' 2 2))
    refine wordAgrees_of_key hfmt ?_
    rw [hb0, ← BitVec.eq_of_toNat_eq (show _ = (0#3).toNat from hev), keyOf_fields]
  case h_2 hev => cases h; exact wordAgrees_of_event (ev := 1#3) hev (by decide) (Laws.EventCode.txStart _ _) rfl
  case h_3 hev => cases h; exact wordAgrees_of_event (ev := 2#3) hev (by decide) Laws.EventCode.txCollect rfl
  case h_4 hev => cases h; exact wordAgrees_of_event (ev := 3#3) hev (by decide) Laws.EventCode.txGiveup rfl
  case h_5 hev => cases h; exact wordAgrees_of_event (ev := 4#3) hev (by decide) Laws.EventCode.reset rfl
  case h_6 hev =>
    split at h
    case h_1 hs =>
      cases h
      exact wordAgrees_of_subKey (ev := 5#3) (sub := 0#5) hev hs (Laws.EventCode.configure _).1 (encode_configure_key _)
    case h_2 hs => cases h; exact wordAgrees_of_subKey (ev := 5#3) (sub := 1#5) hev hs rfl rfl
    case h_3 hs => cases h; exact wordAgrees_of_subKey (ev := 5#3) (sub := 2#5) hev hs rfl rfl
    case h_4 hs => cases h; exact wordAgrees_of_subKey (ev := 5#3) (sub := 3#5) hev hs rfl rfl
    case h_5 => cases h
  case h_7 hev =>
    split at h
    case h_1 hs => cases h; exact wordAgrees_of_subKey (ev := 7#3) (sub := 0#5) hev hs rfl rfl
    case h_2 hs => cases h; exact wordAgrees_of_subKey (ev := 7#3) (sub := 1#5) hev hs rfl rfl
    case h_3 hs => cases h; exact wordAgrees_of_subKey (ev := 7#3) (sub := 2#5) hev hs rfl rfl
    case h_4 => cases h
  case h_8 => cases h

/-- A table word of a wire format, read by the decoder. -/
theorem decodeTableWord_wire {nbits : Nat} {fmt : Format} (hfmt : ∀ n, formatOfBits nbits n = fmt) {a : Bit} {f : Frame}
    (hfit : 2048 * a.toNat + f.toNat < 2 ^ nbits) :
    decodeTableWord nbits (2048 * a.toNat + f.toNat) = (decode (wireWord fmt a f)).toOption := by
  rw [decodeTableWord, hfmt, Nat.mod_eq_of_lt hfit, wordOfNat_wire]
  cases decode (wireWord fmt a f) <;> rfl

end Sys2Proof

section
open Sys2Proof Sys2Proof.Machine

/-- Settles O1: each kind of word read back. -/
theorem encodedOperationDecodesToItself : Obligations.EncodedOperationDecodesToItself := fun i hwf => by
  cases i with
  | rxStart d k => exact decode_edgeWord .read (by decide) 0#1 d k
  | rxData p d =>
    obtain ⟨h1, h8⟩ : 1 ≤ p ∧ p ≤ 8 := by simpa [Instr.wf, isDataPos] using hwf
    exact (decode_edgeWord .read (by omega) 0#1 d .none).trans (by rw [edgeOpOf_read_data h1 h8]; rfl)
  | rxParity d k => exact decode_edgeWord .read (by decide) 0#1 d k
  | rxStop d k => exact decode_edgeWord .read (by decide) 0#1 d k
  | illegal m p =>
    obtain ⟨hp, hsel⟩ := edgeOpOf_illegal hwf
    exact (decodeKey_keyOf m hp _ _).trans (by rw [hsel]; rfl)
  | txIgnore => exact decode_edgeWord .write (p := 0) (by decide) 0#1 0#1 .none
  | txBit p =>
    obtain ⟨h1, h9⟩ : 1 ≤ p ∧ p ≤ 9 := by simpa [Instr.wf, isSendBitPos] using hwf
    exact (decodeKey_keyOf .write (by omega) _ _).trans (by rw [edgeOpOf_write_sendBit h1 h9]; rfl)
  | txStop => exact decode_edgeWord .write (p := 10) (by decide) 0#1 0#1 .none
  | txAck d => exact decode_edgeWord .write (by decide) 0#1 d .none
  | txStart b k =>
    have hk : LineFault.ofCode ((0#6 ++ k.code : BitVec 8).extractLsb' 0 2) = k := by cases k <;> decide
    simp [decode, encode, k8Word, decodeKey, Laws.EventCode.keyEv_subKey, hk]
  | chkpar b r =>
    have hr : (0#7 ++ r : BitVec 8).extractLsb' 0 1 = r := BitVec.extractLsb'_append_eq_right
    simp [decode, encode, k8Word, decodeKey, Laws.EventCode.keyEv_subKey, keySub_subKey, hr]
  | configure f => cases f <;> simp [decode, encode, k8Word, decodeKey, Laws.EventCode.keyEv_subKey, keySub_subKey]
  | parity b | mkframe b =>
    simp [decode, encode, k8Word, decodeKey, Laws.EventCode.keyEv_subKey, keySub_subKey]
  | frame11 p b => simp [encode, decode_wireWord_f11]
  | exchange12 a b => simp [encode, decode_wireWord_f12, mkFrame]
  | txCollect | txGiveup | reset | read | enableCb | disableCb => rfl

/-- Settles O3: the decoded keys, and the wire words as the words of their fields. -/
theorem decodedWordHasOneMeaning : Obligations.DecodedWordHasOneMeaning := fun w i h => by
  obtain ⟨fmt, b0, b1, b2⟩ := w
  cases fmt with
  | k8 =>
    obtain ⟨hfmt, hev, hkey⟩ := wordAgrees_of_decodeKey h
    exact ⟨hfmt, fun _ => hev, fun _ => hkey, fun hne => absurd rfl hne⟩
  | f11 =>
    obtain ⟨f, hw, hstart, hstop, rfl⟩ := decodeFrame_eq_ok h
    have hi : encode (.frame11 (frameBit f 9) (unframe f)) = ⟨.f11, b0, b1, b2⟩ := by
      rw [hw, encode, frameOf_fields hstart hstop]
    exact ⟨rfl, nofun, nofun, fun _ => hi⟩
  | f12 =>
    obtain ⟨a, b, hw, rfl⟩ := decodeExchange_eq_ok h
    exact ⟨rfl, nofun, nofun, fun _ => hw.symm⟩

/-- Settles O4: the two wire decoders on the words of a frame. -/
theorem wireWordsOfTheTwoFormats : Obligations.WireWordsOfTheTwoFormats := by
  refine ⟨fun f => ?_, fun a f => ?_⟩
  · have hw := decodeTableWord_wire (nbits := 11) (fmt := .f11) (fun _ => rfl) (a := 0#1) (f := f) (by simp; omega)
    rw [BitVec.toNat_ofNat, Nat.zero_mod, Nat.mul_zero, Nat.zero_add] at hw
    rw [hw, decode_wireWord_f11]
    by_cases hstart : frameBit f 0 = 0#1
    · by_cases hstop : frameBit f 10 = 1#1
      · simp only [hstart, hstop]; rfl
      · rw [if_neg (not_not.2 hstart), if_pos hstop, if_neg fun h => hstop h.2]; rfl
    · rw [if_pos hstart, if_neg fun h => hstart h.1]; rfl
  · have hfit : 2048 * a.toNat + f.toNat < 2 ^ 12 := by have := a.isLt; have := f.isLt; omega
    rw [decodeTableWord_wire (fmt := .f12) (fun _ => rfl) hfit, decode_wireWord_f12]
    by_cases hv : f.valid = true
    · obtain ⟨hstart, hstop, hparity⟩ := (Frame.valid_iff f).1 hv
      rw [if_pos hv, if_neg (not_not.2 hstart), if_neg (not_not.2 hstop), if_neg (not_not.2 hparity)]; rfl
    · rw [if_neg hv]
      split
      · rfl
      split
      · rfl
      split
      · rfl
      next hstart hstop hparity =>
      exact absurd ((Frame.valid_iff f).2 ⟨not_not.1 hstart, not_not.1 hstop, not_not.1 hparity⟩) hv

/-- Settles O5: the fourteen words read by the decoder. -/
theorem tableWordsDecode : Obligations.TableWordsDecode := by
  unfold Obligations.TableWordsDecode
  decide

end

/-!
PROOFS. The step: the event it takes, the word it decodes and the operation it runs.
-/

namespace Sys2Proof.Machine

/-! ## The event a step handles -/

/-- An event handled at the state from which it has been taken. -/
def runEvent (e : Event) (s : State) : Result :=
  match selectOp s e with
  | some i => exec i s
  | none => .next s

/-- Selection does not look at the pending events. -/
theorem selectOp_popEvent (s : State) (e : Event) : selectOp s.popEvent e = selectOp s e := by cases e <;> rfl

/-- A step handles the oldest event. -/
theorem step_eq_runEvent {s : State} {e : Event} {es : List Event} (h : s.events = e :: es) :
    step s = runEvent e s.popEvent := by
  cases hs : selectOp s e with
  | some i => simp only [step_cons h hs, runEvent, selectOp_popEvent, hs]
  | none => simp only [step, h, runEvent, selectOp_popEvent, hs]

/-- An event put before the pending ones is handled next. -/
theorem step_pushEvent (s : State) (e : Event) : step (s.pushEvent e) = runEvent e s := step_eq_runEvent rfl

/-- The state from which the oldest event has been taken. -/
theorem popEvent_of_cons {s : State} {e : Event} {es : List Event} (h : s.events = e :: es) :
    s.popEvent = { s with events := es } := by rw [State.popEvent, h, List.tail_cons]

/-- An edge event is an edge. -/
theorem runEvent_edge (c d : Bit) (k : LineFault) (s : State) : runEvent (.edge c d k) s = edge d k s := by
  by_cases ha : edgeArmed s = true
  · simp [runEvent, selectOp, edge, ha, runEdgeOp_eq_exec]
  · simp [runEvent, selectOp, edge, ha]

/-- Every other event selects one well-formed operation in every state, and its word is that operation's. -/
theorem selectOp_of_not_edge (s : State) {e : Event} (h : ∀ c d k, e ≠ .edge c d k) :
    ∃ i, selectOp s e = some i ∧ eventWord s e = encode i ∧ i.wf = true := by
  cases e with
  | edge c d k => exact absurd rfl (h c d k)
  | start | collect | giveup | reset | configure | read | enableCb | disableCb | parity | chkpar | mkframe | frame11
  | exchange12 => exact ⟨_, rfl, rfl, rfl⟩

/-! ## The edge a step runs -/

/-- In READ mode a position beyond 10 selects nothing (R92). -/
theorem edgeOpOf_read_beyond {p : Nat} (h : 11 ≤ p) : edgeOpOf .read p = .illegal .read p := by grind [edgeOpOf]

/-- In WRITE mode a position beyond 11 selects nothing (R92). -/
theorem edgeOpOf_write_beyond {p : Nat} (h : 12 ≤ p) : edgeOpOf .write p = .illegal .write p := by grind [edgeOpOf]

/-- A step with an edge pending and the interrupt armed runs the operation that mode and position select, with the sampled
level (R160). -/
theorem step_edge {s : State} {c d : Bit} {k : LineFault} {es : List Event} (h : s.events = .edge c d k :: es)
    (hc : s.clkDrv = .released) :
    step s = exec ((selectEdge s).toInstr (sampleData s d) k) { s with events := es } := by
  rw [step_eq_runEvent h, runEvent_edge, edge_armed (s := s.popEvent) hc, runEdgeOp_eq_exec, popEvent_of_cons h]
  rfl

end Sys2Proof.Machine

section
open Sys2Proof Sys2Proof.Machine

/-- Settles O6: an edge by the dispatch table, every other event by the round trip of its operation's word. -/
theorem stepRunsTheDecodedOperation : Obligations.StepRunsTheDecodedOperation := fun s e es he harmed => by
  refine ⟨fun hpos => ?_, fun c d k hedge hpos => ?_⟩
  · by_cases hedge : ∃ c d k, e = .edge c d k
    · obtain ⟨c, d, k, rfl⟩ := hedge
      have hp : livePos s < 16 := Nat.lt_succ_of_le (hpos c d k rfl)
      exact ⟨_, decode_edgeWord s.mode hp c _ k, edgeOpOf_wf s.mode hp _ k, step_edge he (harmed c d k rfl)⟩
    · push Not at hedge
      obtain ⟨i, hsel, hword, hwf⟩ := selectOp_of_not_edge s hedge
      refine ⟨i, ?_, hwf, ?_⟩
      · rw [hword]
        exact encodedOperationDecodesToItself i hwf
      · rw [step_cons he hsel, popEvent_of_cons he]
  · subst hedge
    have hsel : selectEdge s = .illegal s.mode (livePos s) := by
      rw [selectEdge]
      cases s.mode with
      | read => exact edgeOpOf_read_beyond (by omega)
      | write => exact edgeOpOf_write_beyond (by omega)
    rw [step_edge he (harmed c d k rfl), hsel]
    rfl

/-- Settles O7: an empty list of events, and a disarmed edge. -/
theorem noEventNoOperation : Obligations.NoEventNoOperation := fun s => by
  refine ⟨step_nil, fun c d k es he hc => ?_⟩
  rw [step_eq_runEvent he, runEvent_edge, edge_disarmed (s := s.popEvent) hc, popEvent_of_cons he]

/-- Settles O8: the rows of the dispatch table. -/
theorem edgeDispatchFollowsModeAndPosition : Obligations.EdgeDispatchFollowsModeAndPosition := by
  intro s c d v k es he hc hlow hhigh
  have hv : sampleData s d = v := by
    by_cases hd : s.dataDrv = .low
    · rw [sampleData_of_low hd, hlow hd]
    · rw [sampleData_of_ne_low hd, hhigh hd]
  have hstep := step_edge he hc
  rw [hv] at hstep
  refine ⟨fun hm => ?_, fun hm => ?_⟩
  · rw [selectEdge_read hm] at hstep
    refine ⟨fun hp => ?_, fun h1 h8 => ?_, fun hp => ?_, fun hp => ?_, fun hp => ?_⟩
    · rw [hstep, hp]; rfl
    · rw [hstep, edgeOpOf_read_data h1 h8]; rfl
    · rw [hstep, hp]; rfl
    · rw [hstep, hp]; rfl
    · rw [hstep, edgeOpOf_read_beyond hp]; rfl
  · rw [selectEdge_write hm rfl] at hstep
    refine ⟨fun hp => ?_, fun h1 h9 => ?_, fun hp => ?_, fun hp => ?_, fun hp => ?_⟩
    · rw [hstep, hp]; rfl
    · rw [hstep, edgeOpOf_write_sendBit h1 h9]; rfl
    · rw [hstep, hp]; rfl
    · rw [hstep, hp]; rfl
    · rw [hstep, edgeOpOf_write_beyond hp]; rfl

/-- Settles O9: the meaning of an illegal selection is a fault. -/
theorem illegalSelectionFaults : Obligations.IllegalSelectionFaults := fun _ _ _ => rfl

end

/-!
PROOFS. The host's operations and the facade's: an equation for each case, and what each leaves alone.
-/

namespace Sys2Proof.Machine

/-! ## The parts of the state that stay -/

/-- The gate is taken or available (R29). -/
theorem State.gate_cases (s : State) : s.gate = .taken ∨ s.gate = .available := by cases s.gate <;> simp

/-- CLOCK is driven low or released (R31). -/
theorem State.clkDrv_cases (s : State) : s.clkDrv = .low ∨ s.clkDrv = .released := by cases s.clkDrv <;> simp

/-- A state has the block of itself, and so of every state that differs outside the block. -/
theorem SameBlock.refl (s : State) : SameBlock s s := ⟨⟨rfl, rfl⟩, ⟨rfl, rfl⟩, ⟨rfl, rfl, rfl⟩, rfl, rfl⟩

/-- A state has the environment of itself. -/
theorem SameEnv.refl (s : State) : SameEnv s s := ⟨rfl, rfl, rfl⟩

/-- A state has the parameters and pending events of itself. -/
theorem SameModel.refl (s : State) : SameModel s s := ⟨rfl, rfl⟩

/-! ## The inbox -/

/-- An append to a full inbox is refused (R173). -/
theorem appendInbox_full {s : State} (h : inboxIsFull s = true) (b : Byte) :
    appendInbox b s = .refused .inboxFull := if_pos h

/-! ## TX.START -/

/-- Everything an initiation leaves: nothing changed, the write started, or the write failed at step 4, 5 or 7 (R141, R142). -/
theorem initiate_ends (b : Byte) (k : LineFault) (s : State) :
    (s.gate = .taken ∧ initiate b k s = (s, .eBusy)) ∨
    (s.gate = .available ∧ initiate b k s = ({ writeStarted b s with trace := s.trace ++ initiationActions s }, .ok)) ∨
    (s.gate = .available ∧ s.cfg.lineCfgCanFail = true ∧ k ≠ .none ∧ initiate b k s = (writeFailed b k s, .eConfig)) := by
  cases hg : s.gate with
  | taken => exact .inl ⟨rfl, initiate_busy hg b k⟩
  | available =>
    by_cases hk : s.cfg.lineCfgCanFail = false ∨ k = .none
    · exact .inr (.inl ⟨rfl, initiate_started b hg (effectiveFault_none hk)⟩)
    · obtain ⟨hcfg, hk⟩ := not_or.1 hk
      rw [Bool.not_eq_false] at hcfg
      exact .inr (.inr ⟨rfl, hcfg, hk, initiate_failed b hg hcfg hk⟩)

/-- An initiation leaves the environment, the parameters and the pending events. -/
theorem initiate_frame (b : Byte) (k : LineFault) (s : State) :
    SameEnv s (initiate b k s).1 ∧ SameModel s (initiate b k s).1 := by
  obtain ⟨-, h⟩ | ⟨-, h⟩ | ⟨-, -, -, h⟩ := initiate_ends b k s <;> rw [h] <;> exact ⟨.refl s, .refl s⟩

/-- A start with a failing step (R142). -/
theorem exec_txStart_failed (b : Byte) {k : LineFault} {s : State} (hg : s.gate = .available)
    (hcfg : s.cfg.lineCfgCanFail = true) (hk : k ≠ .none) :
    exec (.txStart b k) s = .next ((writeFailed b k s).emit (.status .eConfig)) := by
  rw [exec_txStart, initiate_failed b hg hcfg hk]

/-- A start that meets the gate taken (R141). -/
theorem exec_txStart_busy (b : Byte) (k : LineFault) {s : State} (hg : s.gate = .taken) :
    exec (.txStart b k) s = .next { s with trace := s.trace ++ [.status .eBusy] } := by
  rw [exec_txStart, initiate_busy hg]
  rfl

/-! ## TX.COLLECT, TX.GIVEUP and RESET -/

/-- A collection while the gate is taken waits (R168). -/
theorem exec_txCollect_taken {s : State} (hg : s.gate = .taken) : exec .txCollect s = .next (s.emit .waiting) := by
  show execTxCollect s = _
  rw [execTxCollect, tryAcquire_taken hg]

/-- A collection with the gate available is the status of its outcome: the gate is taken and given back in the same step, so
it stays available (R168). -/
theorem exec_txCollect_collected {s : State} {st : Status} (hg : s.gate = .available)
    (ho : collectStatus s.txOutcome = some st) :
    exec .txCollect s = .next (State.emit { s with txOutcome := .inactive } (.status st)) := by
  have hback : State.releaseGate { s.takeGate with txOutcome := .inactive } = { s with txOutcome := .inactive } := by
    rw [State.releaseGate, State.takeGate, ← hg]
  show execTxCollect s = _
  simp only [execTxCollect, tryAcquire_available hg, State.takeGate_txOutcome, ho]
  rw [hback]

/-- A collection with the gate available and an outcome that has no status is refused (R168). -/
theorem exec_txCollect_refused {s : State} (hg : s.gate = .available) (ho : collectStatus s.txOutcome = none) :
    exec .txCollect s = .refused (.collectWithoutOutcome s.txOutcome) := by
  show execTxCollect s = _
  simp only [execTxCollect, tryAcquire_available hg, State.takeGate_txOutcome, ho]

/-- The outcomes that have a status (R168). -/
theorem collectStatus_eq_some {o : TxOutcome} {st : Status} (h : collectStatus o = some st) :
    o = .success ∨ o = .failure := by
  cases o with
  | success => exact .inl rfl
  | failure => exact .inr rfl
  | inactive | active => cases h

/-- Everything a collection that goes on can do. -/
theorem exec_txCollect_next {s t : State} (h : exec .txCollect s = .next t) :
    (s.gate = .taken ∧ t = s.emit .waiting) ∨
    (s.gate = .available ∧ (s.txOutcome = .success ∨ s.txOutcome = .failure) ∧
      ∃ st, t = State.emit { s with txOutcome := .inactive } (.status st)) := by
  obtain hg | hg := s.gate_cases
  · rw [exec_txCollect_taken hg] at h
    exact .inl ⟨hg, (Host.Outcome.next.inj h).symm⟩
  · cases ho : collectStatus s.txOutcome with
    | none => rw [exec_txCollect_refused hg ho] at h; cases h
    | some st =>
      rw [exec_txCollect_collected hg ho] at h
      exact .inr ⟨hg, collectStatus_eq_some ho, st, (Host.Outcome.next.inj h).symm⟩

/-- A give-up with the policy KEEP (R170). -/
theorem exec_txGiveup_keep {s : State} (hp : s.cfg.giveupPolicy = .keep) :
    exec .txGiveup s = .next (s.emit (.status .eTimeoutWrite)) := by
  show execTxGiveup s = _
  rw [execTxGiveup, hp]

/-- A give-up with the policy RELEASE (R170). -/
theorem exec_txGiveup_release {s : State} (hp : s.cfg.giveupPolicy = .release) :
    exec .txGiveup s = .next (s.releaseGate.emit (.status .eTimeoutWrite)) := by
  show execTxGiveup s = _
  rw [execTxGiveup, hp]

/-- Everything a give-up can do. -/
theorem exec_txGiveup_next {s t : State} (h : exec .txGiveup s = .next t) :
    t = s.emit (.status .eTimeoutWrite) ∨
    (s.cfg.giveupPolicy = .release ∧ t = s.releaseGate.emit (.status .eTimeoutWrite)) := by
  cases hp : s.cfg.giveupPolicy with
  | keep =>
    rw [exec_txGiveup_keep hp] at h
    exact .inl (Host.Outcome.next.inj h).symm
  | release =>
    rw [exec_txGiveup_release hp] at h
    exact .inr ⟨rfl, (Host.Outcome.next.inj h).symm⟩

/-- RESET gives the reset values, a free frame register and the model's own fields (R220). -/
theorem exec_reset (s : State) : exec .reset s =
    .next { State.reset with
      txFrame := Config.freeFrame s.draws
      cfg := s.cfg
      events := s.events
      trace := s.trace
      draws := s.draws + 1 } := rfl

/-! ## The facade -/

/-- READ on an empty inbox (R176). -/
theorem exec_read_nil {s : State} (h : s.inbox = []) : exec .read s = .next (s.emit (.status .eTimeoutRead)) := by
  show execRead s = _
  rw [execRead, h]

/-- READ takes the oldest byte (R176). -/
theorem exec_read_cons {s : State} {b : Byte} {rest : List Byte} (h : s.inbox = b :: rest) :
    exec .read s = .next (State.emit { s with inbox := rest } (.byteRead b)) := by
  show execRead s = _
  rw [execRead, h]

/-- A toggle that does not change the flag (R177). -/
theorem setCbEnabled_same {v : Bool} {s : State} (h : s.cbEnabled = v) : setCbEnabled v s = s := if_pos h

/-- A toggle that changes the flag empties the inbox (R177). -/
theorem setCbEnabled_change {v : Bool} {s : State} (h : s.cbEnabled ≠ v) :
    setCbEnabled v s = { s with cbEnabled := v, inbox := [] } := if_neg h

/-- The inbox after a toggle (R177). -/
theorem setCbEnabled_inbox (v : Bool) (s : State) :
    (setCbEnabled v s).inbox = if s.cbEnabled = v then s.inbox else [] := by
  rw [setCbEnabled]
  split <;> rfl

/-- ENABLE_CB (R177). -/
theorem exec_enableCb (s : State) : exec .enableCb s = .next ((setCbEnabled true s).emit (.status .ok)) := rfl

/-- DISABLE_CB (R177). -/
theorem exec_disableCb (s : State) : exec .disableCb s = .next ((setCbEnabled false s).emit (.status .ok)) := rfl

/-- Everything READ can do. -/
theorem exec_read_next {s t : State} (h : exec .read s = .next t) :
    (s.inbox = [] ∧ t = s.emit (.status .eTimeoutRead)) ∨
    ∃ b rest, s.inbox = b :: rest ∧ t = State.emit { s with inbox := rest } (.byteRead b) := by
  cases hi : s.inbox with
  | nil =>
    rw [exec_read_nil hi] at h
    exact .inl ⟨rfl, (Host.Outcome.next.inj h).symm⟩
  | cons b rest =>
    rw [exec_read_cons hi] at h
    exact .inr ⟨b, rest, rfl, (Host.Outcome.next.inj h).symm⟩

/-- A toggle touches the flag and the inbox alone. -/
theorem setCbEnabled_frame (v : Bool) (s : State) :
    SameBlock s (setCbEnabled v s) ∧ SameModel s (setCbEnabled v s) ∧ (setCbEnabled v s).draws = s.draws ∧
      (setCbEnabled v s).callback = s.callback := by
  by_cases h : s.cbEnabled = v
  · rw [setCbEnabled_same h]
    exact ⟨.refl s, .refl s, rfl, rfl⟩
  · rw [setCbEnabled_change h]
    exact ⟨.refl s, .refl s, rfl, rfl⟩

end Sys2Proof.Machine

section
open Sys2Proof Sys2Proof.Machine

/-- Settles O14: without an enabled callback the byte goes to the inbox, which is full. -/
theorem fullInboxIsRefused : Obligations.FullInboxIsRefused := fun k s n hcb hcap hfull => by
  have hfull : inboxIsFull s = true := by simp [inboxIsFull, hcap, hfull]
  rw [exec_rxStop_one, deliver_inbox hcb, appendInbox_full hfull]
  rfl

/-- Settles O17: the three failing steps. -/
theorem failedConfigurationKeepsTheGate : Obligations.FailedConfigurationKeepsTheGate := fun b k s hg hcfg hk => by
  refine ⟨Config.freeClkDrv s.draws, Config.freeDataDrv s.draws, ?_⟩
  rw [exec_txStart_failed b hg hcfg hk]
  cases k with
  | none => exact absurd rfl hk
  | step4 | step5 | step7 => simp [writeFailed, actionsBefore, State.emit]

/-- Settles O23: the four outcomes. -/
theorem txCollectReturnsTheOutcomeOnce : Obligations.TxCollectReturnsTheOutcomeOnce := fun s hg => by
  refine ⟨Laws.EventCode.txCollect.2 rfl, fun ho => ?_, fun ho => ?_, fun ho => ?_⟩
  · exact exec_txCollect_collected hg (by rw [ho]; rfl)
  · exact exec_txCollect_collected hg (by rw [ho]; rfl)
  · exact exec_txCollect_refused hg (by obtain ho | ho := ho <;> rw [ho] <;> rfl)

/-- Settles O24: a collection that meets the gate taken. -/
theorem txCollectWaitsForTheGate : Obligations.TxCollectWaitsForTheGate := fun _ hg => exec_txCollect_taken hg

/-- Settles O25: the two policies. -/
theorem txGiveupFollowsThePolicy : Obligations.TxGiveupFollowsThePolicy := fun _ =>
  ⟨Laws.EventCode.txGiveup.2 rfl, exec_txGiveup_keep, exec_txGiveup_release⟩

/-- Settles O26: the fields RESET writes. -/
theorem resetRestoresTheBaseline : Obligations.ResetRestoresTheBaseline := fun s =>
  ⟨Laws.EventCode.reset.2 rfl, _, exec_reset s⟩

/-- Settles O29: an inbox with a byte, and an empty one. -/
theorem readTakesTheOldestByte : Obligations.ReadTakesTheOldestByte := fun _ =>
  ⟨rfl, fun _ _ => exec_read_cons, exec_read_nil⟩

/-- Settles O30: a toggle changes the flag or keeps it. -/
theorem callbackToggleFlushesOnChange : Obligations.CallbackToggleFlushesOnChange := fun s => by
  rw [exec_enableCb, exec_disableCb]
  refine ⟨rfl, rfl, fun hoff => ?_, fun hon => ?_⟩
  · rw [setCbEnabled_change (v := true) (by simp [hoff]), setCbEnabled_same hoff]
    exact ⟨rfl, rfl⟩
  · rw [setCbEnabled_change (v := false) (by simp [hon]), setCbEnabled_same hon]
    exact ⟨rfl, rfl⟩

/-- Settles O47: the ends of a start, a collection, a give-up and a reset. -/
theorem hostOperationsLeaveTheRest : Obligations.HostOperationsLeaveTheRest := fun s t => by
  refine ⟨fun b k h => ?_, fun h => ?_, fun h => ?_, fun h => ?_⟩
  · cases h
    exact initiate_frame b k s
  · obtain ⟨-, rfl⟩ | ⟨-, -, st, rfl⟩ := exec_txCollect_next h <;>
      exact ⟨⟨rfl, rfl⟩, ⟨rfl, rfl⟩, ⟨rfl, rfl⟩, .refl s, .refl s, rfl, rfl, rfl⟩
  · obtain rfl | ⟨-, rfl⟩ := exec_txGiveup_next h <;>
      exact ⟨rfl, ⟨rfl, rfl⟩, ⟨rfl, rfl, rfl⟩, ⟨rfl, rfl⟩, .refl s, .refl s, rfl⟩
  · cases h
    exact ⟨.refl s, rfl⟩

/-- Settles O48: each request by its equation. -/
theorem facadeAndPureOperationsLeaveTheBlock : Obligations.FacadeAndPureOperationsLeaveTheBlock := by
  rintro s t i f b r (rfl | rfl | rfl | rfl | rfl | rfl | rfl) h
  · cases f <;> cases h <;> exact ⟨.refl s, .refl s, rfl, fun hi => absurd rfl hi, fun _ _ => rfl, fun _ _ _ => rfl⟩
  · obtain ⟨-, rfl⟩ | ⟨b, rest, -, rfl⟩ := exec_read_next h <;>
      exact ⟨.refl s, .refl s, rfl, fun _ => rfl, fun _ _ => rfl, fun hi => absurd rfl hi⟩
  · cases h
    obtain ⟨hblock, hmodel, hdraws, hcallback⟩ := setCbEnabled_frame true s
    exact ⟨hblock, hmodel, hdraws, fun _ => hcallback, fun hi => absurd rfl hi, fun _ hi => absurd rfl hi⟩
  · cases h
    obtain ⟨hblock, hmodel, hdraws, hcallback⟩ := setCbEnabled_frame false s
    exact ⟨hblock, hmodel, hdraws, fun _ => hcallback, fun _ hi => absurd rfl hi, fun _ _ hi => absurd rfl hi⟩
  · cases h
    exact ⟨.refl s, .refl s, rfl, fun _ => rfl, fun _ _ => rfl, fun _ _ _ => rfl⟩
  · cases h
    exact ⟨.refl s, .refl s, rfl, fun _ => rfl, fun _ _ => rfl, fun _ _ _ => rfl⟩
  · cases h
    exact ⟨.refl s, .refl s, rfl, fun _ => rfl, fun _ _ => rfl, fun _ _ _ => rfl⟩

end

/-!
PROOFS. What an edge leaves alone: the receive steps, an abort, the continuation steps of a write, and so every edge.
-/

namespace Sys2Proof.Machine

/-! ## The ends of an operation that may fault -/

/-- RX.DATA goes on at the positions of R127 alone. -/
theorem exec_rxData_next {p : Nat} {d : Bit} {s t : State} (h : exec (.rxData p d) s = .next t) :
    t = { s with rxAcc := setBit s.rxAcc (p - 1) d, rxPos := p + 1 } := by
  by_cases hp : 1 ≤ p ∧ p ≤ 8
  · rw [exec_rxData hp.1 hp.2] at h
    exact (Host.Outcome.next.inj h).symm
  · have hfault : exec (.rxData p d) s = .fault (.illegalPosition .read p) := if_neg (by simpa [isDataPos] using hp)
    rw [hfault] at h
    cases h

/-- TX.BIT goes on at the positions of R145 alone. -/
theorem exec_txBit_next {p : Nat} {s t : State} (h : exec (.txBit p) s = .next t) :
    t = { sendBit p s with txPos := p + 1 } := by
  by_cases hp : 1 ≤ p ∧ p ≤ 9
  · rw [exec_txBit hp.1 hp.2] at h
    exact (Host.Outcome.next.inj h).symm
  · have hfault : exec (.txBit p) s = .fault (.illegalPosition .write p) := if_neg (by simpa [isSendBitPos] using hp)
    rw [hfault] at h
    cases h

/-- RX.STOP on a stop bit gives one output, clears the receive registers, and appends the accumulator to the inbox or leaves
the inbox (R129, R171). -/
theorem exec_rxStop_one_next {k : LineFault} {s t : State} (h : exec (.rxStop 1#1 k) s = .next t) :
    (∃ o, t = clearRx (s.emit o)) ∨ ∃ o, t = clearRx (State.emit { s with inbox := s.inbox ++ [s.rxAcc] } o) := by
  obtain ⟨u, hdeliver, hclear⟩ := andThen_eq_next h
  cases hclear
  obtain ⟨o, rfl⟩ | ⟨o, rfl⟩ := deliver_next hdeliver
  · exact .inl ⟨o, rfl⟩
  · exact .inr ⟨o, rfl⟩

/-! ## An abort -/

/-- The line actions of an initiation deliver no byte. -/
theorem delivered_not_mem_actionsBefore (k : LineFault) (s : State) (sink : Sink) (b : Byte) :
    Output.delivered sink b ∉ actionsBefore k s := by
  cases k <;> simp [actionsBefore, initiationActions]

/-- An initiation appends line actions to the trace, and no delivery. -/
theorem initiate_trace (b : Byte) (k : LineFault) (s : State) :
    ∃ new, (initiate b k s).1.trace = s.trace ++ new ∧ ∀ sink c, Output.delivered sink c ∉ new := by
  obtain ⟨-, h⟩ | ⟨-, h⟩ | ⟨-, -, -, h⟩ := initiate_ends b k s <;> rw [h]
  · exact ⟨[], (List.append_nil _).symm, fun _ _ => List.not_mem_nil⟩
  · exact ⟨_, rfl, delivered_not_mem_actionsBefore .none s⟩
  · exact ⟨_, rfl, delivered_not_mem_actionsBefore k s⟩

/-- An initiation from cleared receive registers leaves them cleared. -/
theorem initiate_rx_cleared (b : Byte) (k : LineFault) {s : State} (hpos : s.rxPos = 0) (hacc : s.rxAcc = 0#8) :
    (initiate b k s).1.rxPos = 0 ∧ (initiate b k s).1.rxAcc = 0#8 := by
  obtain ⟨-, h⟩ | ⟨-, h⟩ | ⟨-, -, -, h⟩ := initiate_ends b k s <;> rw [h]
  · exact ⟨hpos, hacc⟩
  · exact ⟨rfl, rfl⟩
  · simp [writeFailed, hpos, hacc]

/-- An abort clears the receive registers, leaves the environment and delivers nothing (R131). -/
theorem abortRead_frame (e : ErrorCond) (k : LineFault) (s : State) :
    SameEnv s (abortRead e k s) ∧ SameModel s (abortRead e k s) ∧
      (abortRead e k s).rxPos = 0 ∧ (abortRead e k s).rxAcc = 0#8 ∧
      ∀ b sink, Output.delivered sink b ∈ (abortRead e k s).trace → Output.delivered sink b ∈ s.trace := by
  obtain ⟨henv, hmodel⟩ := initiate_frame resendByte k (clearRx (s.emit (.raised e)))
  obtain ⟨hpos, hacc⟩ := initiate_rx_cleared resendByte k (s := clearRx (s.emit (.raised e))) rfl rfl
  obtain ⟨new, htrace, hnew⟩ := initiate_trace resendByte k (clearRx (s.emit (.raised e)))
  refine ⟨henv, hmodel, hpos, hacc, fun b sink hmem => ?_⟩
  rw [abortRead, htrace] at hmem
  simpa [hnew] using hmem

/-- The receive operations that abort (R126, R128, R129). -/
theorem exec_eq_abortRead {i : Instr} {k : LineFault} {s : State}
    (hi : i = .rxStart 1#1 k ∨ (∃ d, i = .rxParity d k ∧ d ≠ parityOf s.rxAcc) ∨ i = .rxStop 0#1 k) :
    ∃ e, exec i s = .next (abortRead e k s) := by
  obtain rfl | ⟨d, rfl, hd⟩ | rfl := hi
  · exact ⟨_, exec_rxStart_one k s⟩
  · exact ⟨_, exec_rxParity_mismatch (Bool.eq_false_iff.2 fun h => hd (chkParity_eq_true.1 h)) k⟩
  · exact ⟨_, exec_rxStop_zero k s⟩

end Sys2Proof.Machine

section
open Sys2Proof Sys2Proof.Machine

/-- Settles O44: the four receive steps that do not abort. -/
theorem receiveStepsLeaveTheRest : Obligations.ReceiveStepsLeaveTheRest := by
  rintro s t i k d (rfl | ⟨p, rfl⟩ | ⟨rfl, rfl⟩ | rfl) h
  · rw [exec_rxStart_zero] at h
    cases h
    exact ⟨⟨rfl, rfl⟩, ⟨rfl, rfl, rfl⟩, ⟨rfl, rfl⟩, .refl s, rfl, rfl, rfl, fun _ => ⟨rfl, rfl⟩, fun _ => rfl⟩
  · cases exec_rxData_next h
    exact ⟨⟨rfl, rfl⟩, ⟨rfl, rfl, rfl⟩, ⟨rfl, rfl⟩, .refl s, rfl, rfl, rfl, fun _ => ⟨rfl, rfl⟩, nofun⟩
  · rw [exec_rxParity_match (chkParity_eq_true.2 rfl)] at h
    cases h
    exact ⟨⟨rfl, rfl⟩, ⟨rfl, rfl, rfl⟩, ⟨rfl, rfl⟩, .refl s, rfl, rfl, rfl, fun _ => ⟨rfl, rfl⟩, nofun⟩
  · obtain ⟨o, rfl⟩ | ⟨o, rfl⟩ := exec_rxStop_one_next h <;>
      exact ⟨⟨rfl, rfl⟩, ⟨rfl, rfl, rfl⟩, ⟨rfl, rfl⟩, .refl s, rfl, rfl, rfl, fun hi => absurd rfl hi, nofun⟩

/-- Settles O45: every such step is an abort, which keeps what its initiation keeps. -/
theorem abortDeliversNothing : Obligations.AbortDeliversNothing := fun s t i k hi h => by
  obtain ⟨e, habort⟩ := exec_eq_abortRead hi
  cases habort.symm.trans h
  exact abortRead_frame e k s

/-- Settles O46: the four continuation steps. -/
theorem transmitStepsLeaveTheRest : Obligations.TransmitStepsLeaveTheRest := by
  rintro s t i p d (rfl | rfl | rfl | rfl) h
  · cases h
    exact ⟨⟨rfl, rfl⟩, .refl s, .refl s, rfl, rfl, rfl, fun _ => ⟨⟨rfl, rfl⟩, rfl⟩, nofun⟩
  · cases exec_txBit_next h
    exact ⟨⟨rfl, rfl⟩, .refl s, .refl s, rfl, rfl, rfl, fun _ => ⟨⟨rfl, rfl⟩, rfl⟩, nofun⟩
  · rw [exec_txStop, dataRelease_sendBit] at h
    cases h
    exact ⟨⟨rfl, rfl⟩, .refl s, .refl s, rfl, rfl, rfl, fun _ => ⟨⟨rfl, rfl⟩, rfl⟩, nofun⟩
  · cases h
    exact ⟨⟨rfl, rfl⟩, .refl s, .refl s, rfl, rfl, rfl, fun hi => absurd rfl hi, fun _ => ⟨rfl, rfl⟩⟩

end

namespace Sys2Proof.Machine

/-! ## The environment under an edge -/

/-- An edge keeps parameters, pending events, callback and flag; the inbox stays or gets the accumulator. -/
def EdgeFrame (s t : State) : Prop :=
  SameModel s t ∧ t.callback = s.callback ∧ t.cbEnabled = s.cbEnabled ∧
    (t.inbox = s.inbox ∨ t.inbox = s.inbox ++ [s.rxAcc])

/-- What leaves the whole environment alone is within the frame of an edge. -/
theorem edgeFrame_of_sameEnv {s t : State} (hmodel : SameModel s t) (henv : SameEnv s t) : EdgeFrame s t := by
  obtain ⟨hcallback, henabled, hinbox⟩ := henv
  exact ⟨hmodel, hcallback, henabled, .inl hinbox⟩

/-- An abort is within the frame of an edge. -/
theorem edgeFrame_abortRead (e : ErrorCond) (k : LineFault) (s : State) : EdgeFrame s (abortRead e k s) := by
  obtain ⟨henv, hmodel, -⟩ := abortRead_frame e k s
  exact edgeFrame_of_sameEnv hmodel henv

/-- Every edge operation that goes on aborts, or keeps the frame register within the frame of an edge. -/
theorem edgeOp_cases {o : EdgeOp} {d : Bit} {k : LineFault} {s t : State} (h : exec (o.toInstr d k) s = .next t) :
    (∃ e, t = abortRead e k s) ∨ (t.txFrame = s.txFrame ∧ EdgeFrame s t) := by
  have hrx {i : Instr} (hi : i = .rxStart 0#1 k ∨ (∃ p, i = .rxData p d) ∨ (i = .rxParity d k ∧ d = parityOf s.rxAcc) ∨
      i = .rxStop 1#1 k) (hne : i ≠ .rxStop 1#1 k) (hexec : exec i s = .next t) :
      t.txFrame = s.txFrame ∧ EdgeFrame s t := by
    obtain ⟨-, ⟨hframe, -⟩, -, hmodel, -, hcallback, henabled, hrest, -⟩ := receiveStepsLeaveTheRest s t i k d hi hexec
    exact ⟨hframe, edgeFrame_of_sameEnv hmodel ⟨hcallback, henabled, (hrest hne).1⟩⟩
  have htx {i : Instr} {p : Nat} (hi : i = .txIgnore ∨ i = .txBit p ∨ i = .txStop ∨ i = .txAck d)
      (hexec : exec i s = .next t) : t.txFrame = s.txFrame ∧ EdgeFrame s t := by
    obtain ⟨-, henv, hmodel, -, hframe, -⟩ := transmitStepsLeaveTheRest s t i p d hi hexec
    exact ⟨hframe, edgeFrame_of_sameEnv hmodel henv⟩
  cases o with
  | rxStart =>
    obtain rfl | rfl := bit_cases d
    · exact .inr (hrx (.inl rfl) nofun h)
    · exact .inl ⟨_, (Host.Outcome.next.inj h).symm⟩
  | rxData p => exact .inr (hrx (.inr (.inl ⟨p, rfl⟩)) nofun h)
  | rxParity =>
    by_cases hd : d = parityOf s.rxAcc
    · exact .inr (hrx (.inr (.inr (.inl ⟨rfl, hd⟩))) nofun h)
    · obtain ⟨e, habort⟩ := exec_eq_abortRead (k := k) (.inr (.inl ⟨d, rfl, hd⟩))
      exact .inl ⟨e, Host.Outcome.next.inj (h.symm.trans habort)⟩
  | rxStop =>
    obtain rfl | rfl := bit_cases d
    · exact .inl ⟨_, (Host.Outcome.next.inj h).symm⟩
    · obtain ⟨o, rfl⟩ | ⟨o, rfl⟩ := exec_rxStop_one_next h
      · exact .inr ⟨rfl, edgeFrame_of_sameEnv (.refl s) (.refl s)⟩
      · exact .inr ⟨rfl, .refl s, rfl, rfl, .inr rfl⟩
  | txIgnore => exact .inr (htx (p := 0) (.inl rfl) h)
  | txBit p => exact .inr (htx (.inr (.inl rfl)) h)
  | txStop => exact .inr (htx (p := 0) (.inr (.inr (.inl rfl))) h)
  | txAck => exact .inr (htx (p := 0) (.inr (.inr (.inr rfl))) h)
  | illegal m p => cases h

/-- Every edge is within its frame. -/
theorem edge_frame {d : Bit} {k : LineFault} {s t : State} (h : edge d k s = .next t) : EdgeFrame s t := by
  obtain hc | hc := s.clkDrv_cases
  · cases (edge_disarmed hc d k).symm.trans h
    exact edgeFrame_of_sameEnv (.refl s) (.refl s)
  · rw [edge_armed hc, runEdgeOp_eq_exec] at h
    obtain ⟨e, rfl⟩ | ⟨-, hframe⟩ := edgeOp_cases h
    · exact edgeFrame_abortRead e k s
    · exact hframe

/-- A run of edges keeps parameters, pending events, callback and flag, and only appends to the inbox. -/
theorem edges_frame {ds : List Bit} {s t : State} (h : edges ds s = .next t) :
    SameModel s t ∧ t.callback = s.callback ∧ t.cbEnabled = s.cbEnabled ∧ ∃ bs, t.inbox = s.inbox ++ bs := by
  refine edges_keep (P := fun u => SameModel s u ∧ u.callback = s.callback ∧ u.cbEnabled = s.cbEnabled ∧
    ∃ bs, u.inbox = s.inbox ++ bs) ?_ ds s t ⟨.refl s, rfl, rfl, [], (List.append_nil _).symm⟩ h
  rintro d u v ⟨⟨hcfg, hevents⟩, hcallback, henabled, bs, hinbox⟩ hedge
  obtain ⟨⟨hcfg', hevents'⟩, hcallback', henabled', hinbox'⟩ := edge_frame hedge
  refine ⟨⟨hcfg'.trans hcfg, hevents'.trans hevents⟩, hcallback'.trans hcallback, henabled'.trans henabled, ?_⟩
  obtain hinbox' | hinbox' := hinbox'
  · exact ⟨bs, hinbox'.trans hinbox⟩
  · exact ⟨bs ++ [u.rxAcc], by rw [hinbox', hinbox, List.append_assoc]⟩

end Sys2Proof.Machine

/-!
PROOFS. Whole frames and whole exchanges: the run of a frame's levels to its tenth edge, the two checks after it, and the run of
the eleven edges of a write.
-/

namespace Sys2Proof

open Sys2Proof.Machine

/-! ## The levels of a frame -/

/-- The data bits of a frame read back one by one, whatever the parity bit (R80). -/
theorem frameBit_frameOf_data (p : Bit) (b : Byte) {i : Nat} (h : i < 8) : frameBit (frameOf p b) (i + 1) = bitAt b i := by
  rw [← bitAt_unframe _ h, unframe_frameOf]

/-- A frame on the wire: start bit, data bits, parity bit, stop bit (R11, R80). -/
theorem wireBits_frameOf (p : Bit) (b : Byte) : wireBits (frameOf p b) = 0#1 :: dataBits b ++ [p, 1#1] := by
  have hdata : (List.range 8).map (fun i => frameBit (frameOf p b) (i + 1)) = dataBits b :=
    List.map_congr_left fun i hi => frameBit_frameOf_data p b (List.mem_range.1 hi)
  have hfields : wireBits (frameOf p b) = frameBit (frameOf p b) 0 ::
      (List.range 8).map (fun i => frameBit (frameOf p b) (i + 1)) ++
        [frameBit (frameOf p b) 9, frameBit (frameOf p b) 10] := rfl
  rw [hfields, hdata, frameBit_frameOf_start, frameBit_frameOf_parity, frameBit_frameOf_stop]

/-- Stored one by one at their indices, the bits of a byte give the byte (R85, R117). -/
theorem foldl_setBit_bitAt (b : Byte) : (List.range 8).foldl (fun acc i => setBit acc i (bitAt b i)) 0#8 = b := by
  have hreplay : replayData (mkFrame b) = b := by
    have h := everyByte_eq_true.1 everyByte_roundTripProperty b
    simp only [roundTripProperty, Bool.and_eq_true, decide_eq_true_eq] at h
    exact h.2
  rw [replayData] at hreplay
  refine Eq.trans (List.foldl_ext _ _ _ fun acc i hi => ?_) hreplay
  rw [frameBit_mkFrame_data b (List.mem_range.1 hi)]

end Sys2Proof

namespace Sys2Proof.Machine

/-! ## Receiving a frame -/

/-- Between frames, the nine edges of a start bit and a byte bring the byte into the accumulator (R126, R127). -/
theorem edges_start_data (b : Byte) {s : State} (h : s.AwaitsFrame) :
    edges (0#1 :: dataBits b) s = .next { s with rxPos := 9, rxAcc := b } := by
  obtain ⟨hm, hpos, hacc, hc, hd⟩ := h
  have hstart : edge 0#1 .none s = .next { s with rxPos := 1 } := by
    rw [edge_read hm hc hd, hpos, runEdgeOp_eq_exec]
    exact exec_rxStart_zero .none s
  have hfold : (dataBits b).foldl storeDataBit { s with rxPos := 1 } =
      { s with rxPos := 9, rxAcc := (List.range 8).foldl (fun acc i => setBit acc i (bitAt b i)) 0#8 } := by
    rw [← hacc]
    rfl
  rw [edges_cons, hstart, andThen_next, edges_data (s := { s with rxPos := 1 }) _ hm hc hd le_rfl (by simp [dataBits]), hfold,
    foldl_setBit_bitAt]

/-- An edge at the parity position (R128). -/
theorem edge_parity {s : State} (hm : s.mode = .read) (hc : s.clkDrv = .released) (hd : s.dataDrv ≠ .low)
    (hpos : s.rxPos = 9) (d : Bit) (k : LineFault) : edge d k s = exec (.rxParity d k) s := by
  rw [edge_read hm hc hd, hpos, runEdgeOp_eq_exec]
  rfl

/-- An edge at the stop position (R129). -/
theorem edge_stop {s : State} (hm : s.mode = .read) (hc : s.clkDrv = .released) (hd : s.dataDrv ≠ .low)
    (hpos : s.rxPos = 10) (d : Bit) (k : LineFault) : edge d k s = exec (.rxStop d k) s := by
  rw [edge_read hm hc hd, hpos, runEdgeOp_eq_exec]
  rfl

/-- Between frames, a first level of 1 aborts (R126). -/
theorem edges_start_one {s : State} (h : s.AwaitsFrame) : edges [1#1] s = .next (abortRead .frameStart .none s) := by
  obtain ⟨hm, hpos, -, hc, hd⟩ := h
  rw [edges_cons, edge_read hm hc hd, hpos]
  rfl

/-- Ten edges with a wrong parity bit abort at the tenth (R128). -/
theorem edges_parity_mismatch {p : Bit} {b : Byte} {s : State} (h : s.AwaitsFrame) (hp : p ≠ parityOf b) :
    edges (0#1 :: dataBits b ++ [p]) s = .next (abortRead .parity .none { s with rxPos := 9, rxAcc := b }) := by
  have ⟨hm, _, _, hc, hd⟩ := h
  have hcheck : chkParity b p = false := Bool.eq_false_iff.2 fun h => hp (chkParity_eq_true.1 h)
  rw [edges_append, edges_start_data b h, andThen_next, edges_cons,
    edge_parity (s := { s with rxPos := 9, rxAcc := b }) hm hc hd rfl,
    exec_rxParity_mismatch (s := { s with rxPos := 9, rxAcc := b }) hcheck]
  rfl

/-- Ten edges with the right parity bit wait for the stop bit (R128). -/
theorem edges_parity_match {b : Byte} {s : State} (h : s.AwaitsFrame) (d : Bit) :
    edges (0#1 :: dataBits b ++ [parityOf b, d]) s = exec (.rxStop d .none) { s with rxPos := 10, rxAcc := b } := by
  have ⟨hm, _, _, hc, hd⟩ := h
  have hcheck : chkParity b (parityOf b) = true := chkParity_eq_true.2 rfl
  rw [edges_append, edges_start_data b h, andThen_next, edges_cons,
    edge_parity (s := { s with rxPos := 9, rxAcc := b }) hm hc hd rfl,
    exec_rxParity_match (s := { s with rxPos := 9, rxAcc := b }) hcheck, andThen_next, edges_cons,
    edge_stop (s := { s with rxPos := 10, rxAcc := b }) hm hc hd rfl]
  cases exec (.rxStop d .none) { s with rxPos := 10, rxAcc := b } <;> rfl

/-- A delivery to the callback (R171). -/
theorem delivered_callback {s : State} {f : CallbackRef} (he : s.cbEnabled = true) (hc : s.callback = some f) (b : Byte) :
    delivered b s = s.emit (.delivered (.callback f) b) := by
  unfold delivered
  split
  next g _ hg =>
    cases hc.symm.trans hg
    rfl
  next hno => exact (hno f he hc).elim

/-- A delivery to the inbox (R171). -/
theorem delivered_inbox {s : State} (h : s.cbEnabled = false ∨ s.callback = none) (b : Byte) :
    delivered b s = State.emit { s with inbox := s.inbox ++ [b] } (.delivered .inbox b) := by
  unfold delivered
  split
  next he hc => simp [he, hc] at h
  next => rfl

/-- Where a delivery can be made it is made (R171). -/
theorem deliver_of_canDeliver {s : State} (h : s.CanDeliver) (b : Byte) : deliver b s = .next (delivered b s) := by
  obtain ⟨f, he, hc, hd⟩ | ⟨hcb, hd⟩ := deliver_cases b s
  · rw [hd, delivered_callback he hc]
  · have hroom : ∀ n, s.cfg.inboxCapacity = some n → s.inbox.length < n := by
      obtain ⟨he, hset⟩ | hroom := h
      · obtain hcb | hcb := hcb
        · simp [he] at hcb
        · simp [State.cbSet, hcb] at hset
      · exact hroom
    rw [hd, appendInbox_room (inboxIsFull_of_room hroom), delivered_inbox hcb]

/-- Clearing the receive registers after a delivery gives the state before the frame, with the byte delivered. -/
theorem clearRx_delivered (b acc : Byte) (n : Nat) {s : State} (hpos : s.rxPos = 0) (hacc : s.rxAcc = 0#8) :
    clearRx (delivered b { s with rxPos := n, rxAcc := acc }) = delivered b s := by
  obtain ⟨f, he, hc, -⟩ | ⟨hcb, -⟩ := deliver_cases b s
  · rw [delivered_callback (s := { s with rxPos := n, rxAcc := acc }) he hc, delivered_callback he hc]
    simp [clearRx, State.emit, hpos, hacc]
  · rw [delivered_inbox (s := { s with rxPos := n, rxAcc := acc }) hcb, delivered_inbox hcb]
    simp [clearRx, State.emit, hpos, hacc]

/-- Eleven edges that pass the three checks deliver the byte and leave the rest as it was (R129, R132). -/
theorem edges_frame_delivered {b : Byte} {s : State} (h : s.AwaitsFrame) (hroom : s.CanDeliver) :
    edges (0#1 :: dataBits b ++ [parityOf b, 1#1]) s = .next (delivered b s) := by
  have ⟨_, hpos, hacc, _⟩ := h
  rw [edges_parity_match h, exec_rxStop_one, deliver_of_canDeliver (s := { s with rxPos := 10, rxAcc := b }) hroom,
    andThen_next, clearRx_delivered b b 10 hpos hacc]

/-! ## Sending a frame -/

/-- One send-bit step at the state's own position (R145). -/
def sendNext (s : State) : State := { sendBit s.txPos s with txPos := s.txPos + 1 }

/-- An edge at a send-bit position is one send-bit step, whatever its level (R145). -/
theorem edge_sendBit {s : State} (hm : s.mode = .write) (hc : s.clkDrv = .released) (h1 : 1 ≤ s.txPos) (h9 : s.txPos ≤ 9)
    (d : Bit) (k : LineFault) : edge d k s = .next (sendNext s) := by
  rw [edge_write hm hc, edgeOpOf_write_sendBit h1 h9, runEdgeOp_eq_exec]
  exact exec_txBit h1 h9 s

/-- A run of edges that stays at send-bit positions is a run of send-bit steps. -/
theorem edges_sendBits (ds : List Bit) {s : State} (hm : s.mode = .write) (hc : s.clkDrv = .released)
    (h1 : 1 ≤ s.txPos) (h10 : s.txPos + ds.length ≤ 10) : edges ds s = .next (sendNext^[ds.length] s) := by
  induction ds generalizing s with
  | nil => rfl
  | cons d ds ih =>
    rw [List.length_cons] at h10
    rw [edges_cons, edge_sendBit hm hc h1 (by omega), andThen_next, List.length_cons, Function.iterate_succ_apply]
    exact ih hm hc (Nat.le_add_left 1 _) (show s.txPos + 1 + ds.length ≤ 10 by omega)

/-- A run of send-bit steps puts the frame's bits on DATA one after another, and changes nothing but that line, the position
and the trace. -/
theorem iterate_sendNext (n : Nat) (s : State) : sendNext^[n] s =
    { s with
      txPos := s.txPos + n
      dataDrv := (sendNext^[n] s).dataDrv
      trace := s.trace ++ (List.range n).map fun i => .line (.dataSet (frameBit s.txFrame (s.txPos + i))) } := by
  induction n with
  | zero => simp
  | succ n ih =>
    rw [Function.iterate_succ_apply']
    rw [ih]
    simp [sendNext, sendBit, dataSet, State.emit, List.range_succ, Nat.add_assoc]

/-- An edge at the stop position of a write (R146). -/
theorem edge_txStop {s : State} (hm : s.mode = .write) (hc : s.clkDrv = .released) (hp : s.txPos = 10) (d : Bit)
    (k : LineFault) : edge d k s = .next { dataRelease (sendBit 10 s) with txPos := 11 } := by
  rw [edge_write hm hc, hp, runEdgeOp_eq_exec]
  exact exec_txStop s

/-- An edge at the acknowledgment position, with DATA released (R148). -/
theorem edge_txAck {s : State} (hm : s.mode = .write) (hc : s.clkDrv = .released) (hd : s.dataDrv ≠ .low)
    (hp : s.txPos = 11) (d : Bit) (k : LineFault) : edge d k s = .next (finishWrite d s) := by
  rw [edge_write hm hc, hp, sampleData_of_ne_low hd]
  rfl

/-- The last two edges of a write send the stop bit, release DATA and take the acknowledgment (R146, R148). -/
theorem edges_stop_ack (d a : Bit) {s : State} (hm : s.mode = .write) (hc : s.clkDrv = .released) (hp : s.txPos = 10) :
    edges [d, a] s = .next (finishWrite a { dataRelease (sendBit 10 s) with txPos := 11 }) := by
  rw [edges_cons, edge_txStop hm hc hp, andThen_next, edges_cons,
    edge_txAck (s := { dataRelease (sendBit 10 s) with txPos := 11 }) hm hc nofun rfl]
  rfl

/-- The state after the eleven edges of a write (R150). -/
def writeFinished (a : Bit) (s : State) : State :=
  { s with
    mode := .read
    txPos := 0
    txOutcome := ackOutcome a
    gate := .available
    dataDrv := .released
    trace := s.trace ++ ((List.range 9).map (fun i => .line (.dataSet (frameBit s.txFrame (i + 1)))) ++
      [.line (.dataSet (frameBit s.txFrame 10)), .line .dataRelease]) }

/-- The eleven edges of a started write send the frame, release DATA, take the acknowledgment and end the write (R150). -/
theorem edges_txClockBits (a : Bit) {s : State} (hm : s.mode = .write) (hc : s.clkDrv = .released) (hp : s.txPos = 1) :
    edges (txClockBits a) s = .next (writeFinished a s) := by
  have hsplit : txClockBits a = List.replicate 9 1#1 ++ [1#1, a] := rfl
  have hsent := iterate_sendNext 9 s
  rw [hsplit, edges_append, edges_sendBits _ hm hc (by omega) (by simp [hp]), andThen_next, List.length_replicate,
    edges_stop_ack (s := sendNext^[9] s) _ _ (by rw [hsent, hm]) (by rw [hsent, hc]) (by rw [hsent, hp]), hsent, hp]
  simp [finishWrite, dataRelease, sendBit, dataSet, State.emit, State.releaseGate, writeFinished, Nat.add_comm 1]

/-- A start that takes the gate and the eleven edges after it (R141, R150). -/
theorem edges_txClockBits_started (a : Bit) (b : Byte) (s : State) :
    edges (txClockBits a) { writeStarted b s with trace := s.trace ++ initiationActions s ++ [.status .ok] } = .next
      { s with
        mode := .read
        rxPos := 0
        rxAcc := 0#8
        txPos := 0
        txFrame := mkFrame b
        txOutcome := ackOutcome a
        gate := .available
        clkDrv := .released
        dataDrv := .released
        trace := s.trace ++ initiationActions s ++ [.status .ok] ++ exchangeActions (mkFrame b) } := by
  rw [edges_txClockBits a (s := { writeStarted b s with
    trace := s.trace ++ initiationActions s ++ [.status .ok] }) rfl rfl rfl]
  have hstop : exchangeActions (mkFrame b) =
      (List.range 9).map (fun i => .line (.dataSet (frameBit (mkFrame b) (i + 1)))) ++
        [.line (.dataSet (frameBit (mkFrame b) 10)), .line .dataRelease] := by
    rw [mkFrame, frameBit_frameOf_stop]
    rfl
  rw [hstop]
  rfl

/-- An exchange that takes the gate is its start and eleven edges, as an operation (R82). -/
theorem exec_exchange12_started (a : Bit) (b : Byte) {s : State} (hg : s.gate = .available) :
    exec (.exchange12 a b) s = edges (txClockBits a)
      { writeStarted b s with trace := s.trace ++ initiationActions s ++ [.status .ok] } := by
  show execExchange12 a b s = _
  rw [execExchange12, initiate_started b hg (effectiveFault_none (.inr rfl))]
  rfl

/-- An exchange that meets the gate taken (R82, R141). -/
theorem exec_exchange12_busy (a : Bit) (b : Byte) {s : State} (hg : s.gate = .taken) :
    exec (.exchange12 a b) s = .next { s with trace := s.trace ++ [.status .eBusy] } := by
  show execExchange12 a b s = _
  rw [execExchange12, initiate_busy hg]
  rfl

/-- The events of an exchange that takes the gate are its start and eleven edges (R96). -/
theorem runEvents_start_txClock (a : Bit) (b : Byte) {s : State} (hg : s.gate = .available) :
    runEvents (.start b .none :: txClock a) s = edges (txClockBits a)
      { writeStarted b s with trace := s.trace ++ initiationActions s ++ [.status .ok] } := by
  have hstart : step (s.pushEvent (.start b .none)) = exec (.txStart b .none) s := step_pushEvent s (.start b .none)
  rw [runEvents, hstart, exec_txStart, initiate_started b hg (effectiveFault_none (.inr rfl)), andThen_next]
  exact runEvents_rxBits _ _

end Sys2Proof.Machine

section
open Sys2Proof Sys2Proof.Machine

/-- Settles O37: a frame's levels pass the three checks, and its events are its edges. -/
theorem wholeFrameIsDelivered : Obligations.WholeFrameIsDelivered := fun b s h hroom => by
  have hedges : edges (wireBits (mkFrame b)) s = .next (delivered b s) := by
    rw [mkFrame, wireBits_frameOf]
    exact edges_frame_delivered h hroom
  exact ⟨hedges, (runEvents_rxBits _ s).trans hedges⟩

/-- Settles O38: the tenth edge starts the resend, and the eleventh sends its first bit, which is 0. -/
theorem corruptFrameStartsTheResend : Obligations.CorruptFrameStartsTheResend := fun p b s h hg hp => by
  have hfirst : (mkFrame resendByte).getLsbD 1 = false := by decide
  have hresend : abortRead .parity .none { s with rxPos := 9, rxAcc := b } =
      { writeStarted resendByte s with trace := s.trace ++ [.raised .parity] ++ initiationActions s } :=
    abortRead_started _ (s := { s with rxPos := 9, rxAcc := b }) hg (.inr rfl)
  show edges (wireBits (frameOf p b)) s = _
  rw [wireBits_frameOf, show 0#1 :: dataBits b ++ [p, 1#1] = (0#1 :: dataBits b ++ [p]) ++ [1#1] by simp, edges_append,
    edges_parity_mismatch h hp, andThen_next, hresend, edges_cons,
    edge_sendBit (s := { writeStarted resendByte s with
      trace := s.trace ++ [.raised .parity] ++ initiationActions s }) rfl rfl le_rfl (Nat.le_add_left 1 8),
    andThen_next, sendNext, sendBit_of_getLsbD (v := false) hfirst]
  rfl

/-- Settles O39: which edge decides. -/
theorem elevenLevelsAreClassified : Obligations.ElevenLevelsAreClassified := fun b p s h => by
  refine ⟨edges_start_one h, edges_parity_mismatch h, ?_, ?_⟩
  · rintro rfl
    rw [edges_parity_match h]
    rfl
  · rintro rfl hroom
    exact edges_frame_delivered h hroom

/-- Settles O40: the exchange as an operation and as events is a start and the same eleven edges. -/
theorem wholeExchangeSendsTheFrame : Obligations.WholeExchangeSendsTheFrame := by
  rintro a b s t hm hg rfl
  rw [exec_exchange12_started a b hg, runEvents_start_txClock a b hg, edges_txClockBits_started]
  exact ⟨rfl, rfl⟩

/-- Settles O41: the start of the exchange is busy. -/
theorem busyExchangeIsTurnedAway : Obligations.BusyExchangeIsTurnedAway := fun a b _ hg => exec_exchange12_busy a b hg

/-- Settles O42: a run of edges is a run of edge events, after the start of an exchange too. -/
theorem wireFormatsAreTheirEvents : Obligations.WireFormatsAreTheirEvents := fun p a b s =>
  ⟨(runEvents_rxBits (wireBits (frameOf p b)) s).symm,
    fun hg => (exec_exchange12_started a b hg).trans (runEvents_start_txClock a b hg).symm⟩

/-- Settles O49: a run of edges, and the two ends of an exchange. -/
theorem wireOperationsLeaveTheRest : Obligations.WireOperationsLeaveTheRest := fun s t => by
  refine ⟨fun p b h => edges_frame h, fun a b h => ?_⟩
  obtain hg | hg := s.gate_cases
  · cases (exec_exchange12_busy a b hg).symm.trans h
    exact ⟨.refl s, .refl s⟩
  · rw [exec_exchange12_started a b hg, edges_txClockBits_started] at h
    cases h
    exact ⟨.refl s, .refl s⟩

end

/-!
PROOFS. The facade's blocking write: its start decides whether it waits, and its last move gives the result.
-/

namespace Sys2Proof.Machine

/-- A blocking write whose start takes the gate waits and makes its last move (R169). -/
theorem writeBlocking_started (b : Byte) {k : LineFault} {s : State} (hg : s.gate = .available)
    (hk : s.cfg.lineCfgCanFail = false ∨ k = .none) (during : List Event) (e : WaitEnd) :
    writeBlocking b k during e s = andThen
      (runEvents during { writeStarted b s with trace := s.trace ++ initiationActions s ++ [.status .ok] })
      (endWait e) := by
  rw [writeBlocking, initiate_started b hg (effectiveFault_none hk)]
  rfl

/-- A blocking write whose start meets the gate taken returns at once (R169). -/
theorem writeBlocking_busy (b : Byte) (k : LineFault) {s : State} (hg : s.gate = .taken) (during : List Event)
    (e : WaitEnd) : writeBlocking b k during e s = .next { s with trace := s.trace ++ [.status .eBusy] } := by
  rw [writeBlocking, initiate_busy hg]
  rfl

/-- A blocking write whose start fails returns at once (R142, R169). -/
theorem writeBlocking_failed (b : Byte) {k : LineFault} {s : State} (hg : s.gate = .available)
    (hcfg : s.cfg.lineCfgCanFail = true) (hk : k ≠ .none) (during : List Event) (e : WaitEnd) :
    writeBlocking b k during e s = .next ((writeFailed b k s).emit (.status .eConfig)) := by
  rw [writeBlocking, initiate_failed b hg hcfg hk]

/-- The last output of a state that has just given one. -/
theorem getLast?_trace_emit (s : State) (o : Output) : (s.emit o).trace.getLast? = some o := List.getLast?_concat

/-- The status of the outcome that an acknowledgment level leaves (R148, R168). -/
theorem collectStatus_ackOutcome (a : Bit) :
    collectStatus (ackOutcome a) = some (if a = 0#1 then .ok else .eAck) := by
  rw [ackOutcome]
  split <;> rfl

/-- The last move of a collecting caller (R169). -/
theorem endWait_collect (s : State) : endWait .collect s = exec .txCollect s := rfl

/-- A give-up as one equation over the two policies (R170). -/
theorem endWait_giveup (s : State) : endWait .giveup s = .next
    { s with
      gate := if s.cfg.giveupPolicy = .keep then s.gate else .available
      trace := s.trace ++ [.status .eTimeoutWrite] } := by
  show exec .txGiveup s = _
  obtain hp | hp : s.cfg.giveupPolicy = .keep ∨ s.cfg.giveupPolicy = .release := by cases s.cfg.giveupPolicy <;> simp
  · rw [exec_txGiveup_keep hp, if_pos hp]
    rfl
  · rw [exec_txGiveup_release hp, if_neg (by simp [hp])]
    rfl

end Sys2Proof.Machine

section
open Sys2Proof Sys2Proof.Machine

/-- Settles O43: an exchange and its collection, a give-up, and the two starts that do not wait. -/
theorem blockingWriteReportsTheAcknowledgment : Obligations.BlockingWriteReportsTheAcknowledgment := fun b k s => by
  refine ⟨fun a _ hg hk => ?_, fun during u _ hg hk hrun => ?_, fun during e hg => writeBlocking_busy b k hg during e,
    fun during e hg hcfg hk => ?_⟩
  · have hrun := (runEvents_rxBits _ _).trans (edges_txClockBits_started a b s)
    rw [writeBlocking_started b hg hk, txClock, hrun, andThen_next, endWait_collect,
      exec_txCollect_collected rfl (collectStatus_ackOutcome a)]
    exact ⟨_, rfl, rfl, rfl, rfl, rfl, getLast?_trace_emit _ _⟩
  · rw [writeBlocking_started b hg hk, hrun, andThen_next, endWait_giveup]
  · exact ⟨_, writeBlocking_failed b hg hcfg hk during e, exec_txStart_failed b hg hcfg hk, rfl, rfl, rfl,
      getLast?_trace_emit _ _⟩

end

/-!
PROOFS. Invariants: every step but a RESET is a chain of moves on the block, so that a property which each move keeps is kept by
every step.
-/

namespace Sys2Proof.Machine

/-! ## Moves -/

/-- The ways in which an operation other than RESET changes the block's nine fields. An operation makes one move after another:
an abort clears the receive registers and then starts or fails a write. -/
inductive Move : State → State → Prop
  /-- No field of the block and no parameter changes. -/
  | outside {s t : State} (hblock : SameBlock s t) (hcfg : t.cfg = s.cfg) : Move s t
  /-- RX.START on a start bit (R126). -/
  | startBit {s : State} (hm : s.mode = .read) (hp : s.rxPos = 0) : Move s { s with rxPos := 1 }
  /-- RX.DATA (R127). -/
  | dataBit {s : State} (d : Bit) (hm : s.mode = .read) (h1 : 1 ≤ s.rxPos) (h8 : s.rxPos ≤ 8) : Move s (storeDataBit s d)
  /-- RX.PARITY on a match (R128). -/
  | parityBit {s : State} (hm : s.mode = .read) (hp : s.rxPos = 9) : Move s { s with rxPos := 10 }
  /-- The receive registers are cleared, by RX.STOP and by an abort (R129, R131). -/
  | clear {s : State} (hm : s.mode = .read) : Move s (clearRx s)
  /-- An initiation that takes the gate (R141). -/
  | start {s : State} (b : Byte) (hg : s.gate = .available) : Move s (writeStarted b s)
  /-- An initiation that takes the gate and fails (R142). -/
  | fail {s : State} (b : Byte) {k : LineFault} (hg : s.gate = .available) (hcfg : s.cfg.lineCfgCanFail = true)
      (hk : k ≠ .none) : Move s (writeFailed b k s)
  /-- TX.BIT (R145). -/
  | sendBit {s : State} (hm : s.mode = .write) (h1 : 1 ≤ s.txPos) (h9 : s.txPos ≤ 9) : Move s (sendNext s)
  /-- TX.STOP (R146). -/
  | sendStop {s : State} (hm : s.mode = .write) (hp : s.txPos = 10) :
      Move s { s with dataDrv := .released, txPos := 11 }
  /-- TX.ACK (R148). -/
  | ack {s : State} (d : Bit) (hm : s.mode = .write) (hp : s.txPos = 11) : Move s (finishWrite d s)
  /-- TX.COLLECT with the gate available (R168). -/
  | collect {s : State} (hg : s.gate = .available) (ho : s.txOutcome = .success ∨ s.txOutcome = .failure) :
      Move s { s with txOutcome := .inactive }
  /-- TX.GIVEUP with the policy RELEASE (R170). -/
  | giveup {s : State} (hp : s.cfg.giveupPolicy = .release) : Move s s.releaseGate

/-- A chain of moves. -/
abbrev Moves : State → State → Prop := Relation.ReflTransGen Move

/-- A change outside the block and the parameters is a chain of moves. -/
theorem Moves.of_outside {s t : State} (hblock : SameBlock s t) (hcfg : t.cfg = s.cfg) : Moves s t :=
  .single (.outside hblock hcfg)

/-- A property that every move keeps is kept by a chain of moves. -/
theorem Moves.keep {P : State → Prop} (hmove : ∀ s t, Move s t → P s → P t) {s t : State} (h : Moves s t) (hs : P s) :
    P t := by
  induction h with
  | refl => exact hs
  | tail _ hlast ih => exact hmove _ _ hlast ih

/-- An initiation is a chain of moves. -/
theorem initiate_moves (b : Byte) (k : LineFault) (s : State) : Moves s (initiate b k s).1 := by
  obtain ⟨-, h⟩ | ⟨hg, h⟩ | ⟨hg, hcfg, hk, h⟩ := initiate_ends b k s
  · rw [h]
  · rw [h]
    exact .tail (.single (.start b hg)) (.outside (.refl (writeStarted b s)) rfl)
  · rw [h]
    exact .single (.fail b hg hcfg hk)

/-- An abort in READ mode clears the receive registers and makes the moves of its initiation (R131). -/
theorem abortRead_moves (e : ErrorCond) (k : LineFault) {s : State} (hm : s.mode = .read) : Moves s (abortRead e k s) := by
  have hemit : Moves s (s.emit (.raised e)) := .of_outside (.refl s) rfl
  exact (hemit.tail (.clear hm)).trans (initiate_moves resendByte k _)

/-- An edge is a chain of moves. -/
theorem edge_moves {d : Bit} {k : LineFault} {s t : State} (h : edge d k s = .next t) : Moves s t := by
  obtain ⟨-, rfl⟩ | ⟨-, hm, hread⟩ | ⟨-, hm, hwrite⟩ := edge_cases h
  · exact .refl
  · obtain ⟨hp, rfl⟩ | ⟨h1, h8, rfl⟩ | ⟨hp, rfl⟩ | ⟨o, rfl⟩ | ⟨b, o, rfl⟩ | ⟨e, rfl⟩ := hread
    · exact .single (.startBit hm hp)
    · exact .single (.dataBit _ hm h1 h8)
    · exact .single (.parityBit hm hp)
    · exact .tail (.single (.clear hm)) (.outside (.refl (clearRx s)) rfl)
    · exact .tail (.single (.clear hm)) (.outside (.refl (clearRx s)) rfl)
    · exact abortRead_moves e k hm
  · obtain ⟨-, rfl⟩ | ⟨h1, h9, rfl⟩ | ⟨hp, rfl⟩ | ⟨hp, rfl⟩ := hwrite
    · exact .refl
    · exact .single (.sendBit hm h1 h9)
    · rw [dataRelease_sendBit]
      exact .tail (.single (.sendStop hm hp)) (.outside (.refl { s with dataDrv := .released, txPos := 11 }) rfl)
    · exact .single (.ack _ hm hp)

/-- A run of edges is a chain of moves. -/
theorem edges_moves {ds : List Bit} {s t : State} (h : edges ds s = .next t) : Moves s t :=
  edges_keep (P := Moves s) (fun _ _ _ hmoves hedge => hmoves.trans (edge_moves hedge)) ds s t .refl h

/-- The events of the facade and of the pure functions (R175 to R178, R111 to R114). -/
def isFacade (e : Event) : Bool :=
  match e with
  | .configure _ | .read | .enableCb | .disableCb | .parity _ | .chkpar _ _ | .mkframe _ => true
  | _ => false

/-- A facade request or a pure function leaves the block and the parameters. -/
theorem runEvent_facade {e : Event} {s t : State} (he : isFacade e = true) (h : runEvent e s = .next t) :
    SameBlock s t ∧ t.cfg = s.cfg := by
  have hframe {i : Instr} {f : Option CallbackRef} {b : Byte} {r : Bit} (hi : i = .configure f ∨ i = .read ∨
      i = .enableCb ∨ i = .disableCb ∨ i = .parity b ∨ i = .chkpar b r ∨ i = .mkframe b) (hexec : exec i s = .next t) :
      SameBlock s t ∧ t.cfg = s.cfg := by
    obtain ⟨hblock, ⟨hcfg, -⟩, -⟩ := facadeAndPureOperationsLeaveTheBlock s t i f b r hi hexec
    exact ⟨hblock, hcfg⟩
  cases e with
  | configure f => exact hframe (i := .configure f) (f := f) (b := 0#8) (r := 0#1) (by simp) h
  | read => exact hframe (i := .read) (f := none) (b := 0#8) (r := 0#1) (by simp) h
  | enableCb => exact hframe (i := .enableCb) (f := none) (b := 0#8) (r := 0#1) (by simp) h
  | disableCb => exact hframe (i := .disableCb) (f := none) (b := 0#8) (r := 0#1) (by simp) h
  | parity b => exact hframe (i := .parity b) (f := none) (b := b) (r := 0#1) (by simp) h
  | chkpar b r => exact hframe (i := .chkpar b r) (f := none) (b := b) (r := r) (by simp) h
  | mkframe b => exact hframe (i := .mkframe b) (f := none) (b := b) (r := 0#1) (by simp) h
  | edge | start | collect | giveup | reset | frame11 | exchange12 => cases he

/-- Every event but a RESET is a chain of moves. -/
theorem runEvent_moves {e : Event} {s t : State} (he : e ≠ .reset) (h : runEvent e s = .next t) : Moves s t := by
  cases e with
  | edge c d k =>
    rw [runEvent_edge] at h
    exact edge_moves h
  | start b k =>
    cases h
    exact .tail (initiate_moves b k s) (.outside (.refl _) rfl)
  | collect =>
    obtain ⟨-, rfl⟩ | ⟨hg, ho, st, rfl⟩ := exec_txCollect_next h
    · exact Moves.of_outside (.refl s) rfl
    · exact .tail (.single (.collect hg ho)) (.outside (.refl { s with txOutcome := .inactive }) rfl)
  | giveup =>
    obtain rfl | ⟨hp, rfl⟩ := exec_txGiveup_next h
    · exact Moves.of_outside (.refl s) rfl
    · exact .tail (.single (.giveup hp)) (.outside (.refl s.releaseGate) rfl)
  | reset => exact absurd rfl he
  | configure | read | enableCb | disableCb | parity | chkpar | mkframe =>
    obtain ⟨hblock, hcfg⟩ := runEvent_facade rfl h
    exact Moves.of_outside hblock hcfg
  | frame11 p b => exact edges_moves (ds := wireBits (frameOf p b)) h
  | exchange12 a b =>
    obtain hg | hg := s.gate_cases
    · cases (exec_exchange12_busy a b hg).symm.trans h
      exact Moves.of_outside (.refl s) rfl
    · have hstart : Moves s { writeStarted b s with trace := s.trace ++ initiationActions s ++ [.status .ok] } :=
        .tail (.single (.start b hg)) (.outside (.refl (writeStarted b s)) rfl)
      have hedges := exec_exchange12_started a b hg
      exact hstart.trans (edges_moves (hedges.symm.trans h))

/-- Taking an event off the list is a chain of moves. -/
theorem popEvent_moves (s : State) : Moves s s.popEvent := .of_outside (.refl s) rfl

/-- Every step with an event other than a RESET is a chain of moves. -/
theorem step_moves {e : Event} {es : List Event} {s t : State} (hs : s.events = e :: es) (he : e ≠ .reset)
    (h : step s = .next t) : Moves s t := by
  rw [step_eq_runEvent hs] at h
  exact (popEvent_moves s).trans (runEvent_moves he h)

/-- A property that every move keeps and that a RESET leaves is kept by every step. -/
theorem step_keep {P : State → Prop} (hmove : ∀ s t, Move s t → P s → P t)
    (hreset : ∀ s t, P s → exec .reset s = .next t → P t) {s t : State} (hs : P s) (h : step s = .next t) : P t := by
  cases he : s.events with
  | nil =>
    cases (step_nil he).symm.trans h
    exact hs
  | cons e es =>
    by_cases hr : e = .reset
    · subst hr
      rw [step_eq_runEvent he] at h
      exact hreset _ _ ((popEvent_moves s).keep hmove hs) h
    · exact (step_moves he hr h).keep hmove hs

end Sys2Proof.Machine

/-!
PROOFS. The invariants of R40, what is left of them with other parameters, and the whole-machine rules.
-/

namespace Sys2Proof.Machine

/-! ## What a move does to single fields -/

/-- No move changes a parameter. -/
theorem Move.cfg_eq {s t : State} (h : Move s t) : t.cfg = s.cfg := by
  cases h with
  | outside hblock hcfg => exact hcfg
  | startBit | dataBit | parityBit | clear | start | fail | sendBit | sendStop | ack | collect | giveup => rfl

/-- A move writes a position in the document's ranges or none (R130, R149). -/
theorem Move.positions {s t : State} (h : Move s t) :
    (t.rxPos ≤ 10 ∨ t.rxPos = s.rxPos) ∧ (t.txPos ≤ 11 ∨ t.txPos = s.txPos) := by
  cases h with
  | outside hblock hcfg =>
    obtain ⟨-, ⟨hrx, -⟩, ⟨-, htx, -⟩, -⟩ := hblock
    exact ⟨.inr hrx, .inr htx⟩
  | startBit => exact ⟨.inl (show 1 ≤ 10 by decide), .inr rfl⟩
  | dataBit d hm h1 h8 => exact ⟨.inl (show s.rxPos + 1 ≤ 10 by omega), .inr rfl⟩
  | parityBit => exact ⟨.inl le_rfl, .inr rfl⟩
  | clear => exact ⟨.inl (Nat.zero_le 10), .inr rfl⟩
  | start => exact ⟨.inl (Nat.zero_le 10), .inl (show 1 ≤ 11 by decide)⟩
  | @fail b k hg hcfg hk =>
    refine ⟨?_, .inl (Nat.zero_le 11)⟩
    show (if k = .step7 then 0 else s.rxPos) ≤ 10 ∨ (if k = .step7 then 0 else s.rxPos) = s.rxPos
    split
    · exact .inl (Nat.zero_le 10)
    · exact .inr rfl
  | sendBit hm h1 h9 => exact ⟨.inr rfl, .inl (show s.txPos + 1 ≤ 11 by omega)⟩
  | sendStop => exact ⟨.inr rfl, .inl le_rfl⟩
  | ack => exact ⟨.inr rfl, .inl (Nat.zero_le 11)⟩
  | collect | giveup => exact ⟨.inr rfl, .inr rfl⟩

/-- A built frame has the fixed bits (R114). -/
theorem frameBits_of_mkFrame {s : State} {b : Byte} (h : s.txFrame = mkFrame b) : s.FrameBits := by
  rw [State.FrameBits, h, mkFrame]
  exact ⟨frameBit_frameOf_start _ b, frameBit_frameOf_stop _ b⟩

/-- The fixed bits of the frame register are a property of that register. -/
theorem frameBits_congr {s t : State} (h : t.txFrame = s.txFrame) (hs : s.FrameBits) : t.FrameBits := by
  rw [State.FrameBits, h]
  exact hs

/-- A move keeps the fixed bits of the frame register (R27). -/
theorem Move.frameBits {s t : State} (h : Move s t) (hs : s.FrameBits) : t.FrameBits := by
  cases h with
  | outside hblock hcfg =>
    obtain ⟨-, -, ⟨hframe, -⟩, -⟩ := hblock
    exact frameBits_congr hframe hs
  | start b | fail b => exact frameBits_of_mkFrame (b := b) rfl
  | startBit | dataBit | parityBit | clear | sendBit | sendStop | ack | collect | giveup => exact hs

/-! ## The invariants of R40 -/

/-- The invariants are properties of the block. -/
theorem inv_of_sameBlock {s t : State} (hblock : SameBlock s t) (h : s.Inv) : t.Inv := by
  obtain ⟨⟨hmode, hgate⟩, ⟨hrxPos, hrxAcc⟩, ⟨htxFrame, htxPos, houtcome⟩, hclk, hdata⟩ := hblock
  have hbits : t.FrameBits = s.FrameBits := by rw [State.FrameBits, htxFrame, State.FrameBits]
  cases h
  constructor <;> simpa only [hmode, hgate, hrxPos, hrxAcc, htxPos, houtcome, hclk, hdata, hbits]

/-- The baseline meets the invariants, whatever the frame register holds (R42). -/
theorem inv_of_baseline {s : State} (hm : s.mode = .read) (hrxPos : s.rxPos = 0) (hrxAcc : s.rxAcc = 0#8)
    (htxPos : s.txPos = 0) (ho : s.txOutcome = .inactive) (hg : s.gate = .available) (hc : s.clkDrv = .released)
    (hd : s.dataDrv = .released) : s.Inv := by
  constructor <;> simp [*]

/-- The receive moves keep the invariants: READ mode, a position advanced or cleared, and an accumulator whose bits not yet
received are 0. -/
theorem inv_of_rx {s : State} (h : s.Inv) (hm : s.mode = .read) {p : Nat} {acc : Byte} (hp : p ≤ 10)
    (hstart : p = 0 → acc = 0#8) (hhigh : 1 ≤ p → p ≤ 8 → ∀ i, p - 1 ≤ i → acc.getLsbD i = false) :
    State.Inv { s with rxPos := p, rxAcc := acc } :=
  { h with
    write_rx := fun hw => by cases hm.symm.trans hw
    rxPos_le := hp
    acc_start := hstart
    acc_high := hhigh }

/-- The transmit moves within a write keep the invariants: a position from 1 to 11, and DATA driven up to 10. -/
theorem inv_of_tx {s : State} (h : s.Inv) (hm : s.mode = .write) {p : Nat} {dd : DataDrv} (hp : 1 ≤ p ∧ p ≤ 11)
    (hd : dd ≠ .released ↔ p ≤ 10) : State.Inv { s with txPos := p, dataDrv := dd } :=
  { h with
    write_iff_pos := ⟨fun _ => hp, fun _ => hm⟩
    read_txPos := fun hr => by cases hm.symm.trans hr
    txPos_le := hp.2
    data_driven := ⟨fun hne => ⟨hm, hp.1, hd.1 hne⟩, fun ⟨_, _, h10⟩ => hd.2 h10⟩ }

/-- A started write meets the invariants, whatever went before (R141). -/
theorem inv_writeStarted (b : Byte) (s : State) : (writeStarted b s).Inv := by
  constructor <;> simp [writeStarted]
  exact frameBits_of_mkFrame (b := b) rfl

/-- A write ends in success or failure (R148). -/
theorem ackOutcome_ne_active (d : Bit) : ackOutcome d ≠ .active := by
  rw [ackOutcome]
  split <;> nofun

/-- A finished write meets the invariants (R148). -/
theorem inv_finishWrite {s : State} (h : s.Inv) (hm : s.mode = .write) (hp : s.txPos = 11) (d : Bit) :
    (finishWrite d s).Inv := by
  have hd : s.dataDrv = .released := by
    by_contra hne
    obtain ⟨-, -, h10⟩ := h.data_driven.1 hne
    omega
  exact
    { h with
      write_iff_active := ⟨nofun, fun ho => absurd ho (ackOutcome_ne_active d)⟩
      write_iff_pos := ⟨nofun, fun hpos => absurd hpos.1 (Nat.not_succ_le_zero 0)⟩
      write_iff_taken := ⟨nofun, nofun⟩
      read_txPos := fun _ => rfl
      write_rx := nofun
      txPos_le := Nat.zero_le 11
      data_driven := ⟨fun hne => absurd hd hne, nofun⟩
      frame_bits := fun _ => h.frame_bits (by simp [h.write_iff_active.1 hm]) }

/-- Every move keeps the invariants, with the default parameters. -/
theorem Move.inv {s t : State} (hmove : Move s t) (hpar : s.DefaultParams) (h : s.Inv) : t.Inv := by
  obtain ⟨hcan, hkeep⟩ := hpar
  cases hmove with
  | outside hblock hcfg => exact inv_of_sameBlock hblock h
  | startBit hm hp =>
    exact inv_of_rx h hm (by decide) nofun fun _ _ i _ => by rw [h.acc_start hp]; simp
  | dataBit d hm h1 h8 =>
    refine inv_of_rx h hm (by omega) nofun fun _ _ i hi => ?_
    rw [getLsbD_setBit_ne _ _ _ _ (by omega)]
    exact h.acc_high h1 h8 i (by omega)
  | parityBit hm hp => exact inv_of_rx h hm le_rfl nofun fun _ h8 => absurd h8 (by decide)
  | clear hm => exact inv_of_rx h hm (Nat.zero_le 10) (fun _ => rfl) nofun
  | start b hg => exact inv_writeStarted b s
  | fail b hg hcfg hk => simp [hcan] at hcfg
  | sendBit hm h1 h9 =>
    have hdrive : driveOf (frameBit s.txFrame s.txPos) ≠ .released := by
      rw [driveOf]
      split <;> nofun
    exact inv_of_sameBlock
      (s := { s with txPos := s.txPos + 1, dataDrv := driveOf (frameBit s.txFrame s.txPos) }) (.refl _)
      (inv_of_tx h hm ⟨by omega, by omega⟩ ⟨fun _ => by omega, fun _ => hdrive⟩)
  | sendStop hm hp => exact inv_of_tx h hm ⟨by decide, le_rfl⟩ (by simp)
  | ack d hm hp => exact inv_finishWrite h hm hp d
  | collect hg ho =>
    have hread : s.mode ≠ .write := fun hw => by simp [h.write_iff_taken.1 hw] at hg
    exact { h with write_iff_active := by simp [hread], frame_bits := by simp }
  | giveup hp => cases hkeep.symm.trans hp

/-! ## Events of the host during a write -/

/-- While a write holds the gate, an event other than an edge, a FRAME11 or a RESET changes neither mode nor frame register. -/
theorem runEvent_during_write {e : Event} {s t : State} (hg : s.gate = .taken) (hedge : ∀ c d k, e ≠ .edge c d k)
    (hframe : ∀ p b, e ≠ .frame11 p b) (hreset : e ≠ .reset) (h : runEvent e s = .next t) :
    t.mode = s.mode ∧ t.txFrame = s.txFrame := by
  cases e with
  | edge c d k => exact absurd rfl (hedge c d k)
  | frame11 p b => exact absurd rfl (hframe p b)
  | reset => exact absurd rfl hreset
  | start b k =>
    cases (exec_txStart_busy b k hg).symm.trans h
    exact ⟨rfl, rfl⟩
  | exchange12 a b =>
    cases (exec_exchange12_busy a b hg).symm.trans h
    exact ⟨rfl, rfl⟩
  | collect =>
    cases (exec_txCollect_taken hg).symm.trans h
    exact ⟨rfl, rfl⟩
  | giveup =>
    obtain rfl | ⟨-, rfl⟩ := exec_txGiveup_next h <;> exact ⟨rfl, rfl⟩
  | configure | read | enableCb | disableCb | parity | chkpar | mkframe =>
    obtain ⟨⟨⟨hmode, -⟩, -, ⟨htxFrame, -⟩, -⟩, -⟩ := runEvent_facade rfl h
    exact ⟨hmode, htxFrame⟩

/-- While a write is in flight an edge keeps the frame register, and ends the write at position 11 alone. -/
theorem edge_during_write {d : Bit} {k : LineFault} {s t : State} (hm : s.mode = .write) (h : edge d k s = .next t) :
    t.txFrame = s.txFrame ∧ (t.mode = .read → s.txPos = 11) := by
  obtain ⟨-, rfl⟩ | ⟨-, hread, -⟩ | ⟨-, -, hwrite⟩ := edge_cases h
  · exact ⟨rfl, fun hr => by cases hm.symm.trans hr⟩
  · cases hm.symm.trans hread
  · obtain ⟨-, rfl⟩ | ⟨-, -, rfl⟩ | ⟨-, rfl⟩ | ⟨hp, rfl⟩ := hwrite
    · exact ⟨rfl, fun hr => by cases hm.symm.trans hr⟩
    · exact ⟨rfl, fun hr => by cases hm.symm.trans hr⟩
    · exact ⟨rfl, fun hr => by cases hm.symm.trans hr⟩
    · exact ⟨rfl, fun _ => hp⟩

/-- An abort keeps the fixed bits of the frame register. -/
theorem frameBits_abortRead (e : ErrorCond) (k : LineFault) {s : State} (h : s.FrameBits) :
    (abortRead e k s).FrameBits :=
  (initiate_moves resendByte k (clearRx (s.emit (.raised e)))).keep (fun _ _ => Move.frameBits) h

end Sys2Proof.Machine

section
open Sys2Proof Sys2Proof.Machine

/-- Settles O50: every move keeps the invariants, and a RESET gives the baseline. -/
theorem stepKeepsTheInvariants : Obligations.StepKeepsTheInvariants := fun s t hpar hinv h => by
  refine (step_keep (P := fun u => u.DefaultParams ∧ u.Inv) (fun u v hmove hu => ?_) (fun u v hu hreset => ?_)
    ⟨hpar, hinv⟩ h).2
  · obtain ⟨hpar, hinv⟩ := hu
    refine ⟨?_, hmove.inv hpar hinv⟩
    rw [State.DefaultParams, hmove.cfg_eq]
    exact hpar
  · obtain ⟨hpar, -⟩ := hu
    cases hreset
    exact ⟨hpar, inv_of_baseline rfl rfl rfl rfl rfl rfl rfl rfl⟩

/-- Settles O51: a move writes positions within the ranges, and a RESET 0. -/
theorem stepKeepsPositionsInRange : Obligations.StepKeepsPositionsInRange := fun s t hpos h => by
  refine step_keep (fun u v hmove hu => ?_) (fun u v hu hreset => ?_) hpos h
  · obtain ⟨hrx, htx⟩ := hu
    obtain ⟨hrx', htx'⟩ := hmove.positions
    exact ⟨by omega, by omega⟩
  · cases hreset
    exact ⟨Nat.zero_le 10, Nat.zero_le 11⟩

/-- Settles O52: a move writes positions that four bits hold, and every counter has four. -/
theorem stepKeepsCountersInTheirWidth : Obligations.StepKeepsCountersInTheirWidth := fun s t hpos h => by
  refine step_keep (fun u v hmove hu => ?_) (fun u v hu hreset => ?_) hpos h
  · obtain ⟨hrx, htx⟩ := hu
    obtain ⟨hrx', htx'⟩ := hmove.positions
    have hwidth := u.cfg.sixteen_le
    rw [State.PosInWidth, hmove.cfg_eq]
    exact ⟨by omega, by omega⟩
  · cases hreset
    exact ⟨Nat.two_pow_pos _, Nat.two_pow_pos _⟩

/-- Settles O53: only a TX.GIVEUP with the other policy takes the gate from a write. -/
theorem stepKeepsTheGateHeldByAWrite : Obligations.StepKeepsTheGateHeldByAWrite := fun s t hkeep hgate h => by
  refine (step_keep (P := fun u => u.cfg.giveupPolicy = .keep ∧ u.WriteHoldsGate) (fun u v hmove hu => ?_)
    (fun u v hu hreset => ?_) ⟨hkeep, hgate⟩ h).2
  · obtain ⟨hkeep, hgate⟩ := hu
    refine ⟨by rw [hmove.cfg_eq, hkeep], ?_⟩
    cases hmove with
    | outside hblock hcfg =>
      obtain ⟨⟨hmode, hg⟩, -⟩ := hblock
      rw [State.WriteHoldsGate, hmode, hg]
      exact hgate
    | start | fail => exact fun _ => rfl
    | ack => exact nofun
    | giveup hp => cases hkeep.symm.trans hp
    | startBit | dataBit | parityBit | clear | sendBit | sendStop | collect => exact hgate
  · cases hreset
    exact ⟨hu.1, nofun⟩

/-- Settles O58: no move changes a parameter, and no RESET does. -/
theorem parametersAreFixed : Obligations.ParametersAreFixed := fun s t h => by
  refine step_keep (P := fun u => u.cfg = s.cfg) (fun u v hmove hu => hmove.cfg_eq.trans hu) (fun u v hu hreset => ?_) rfl h
  cases hreset
  exact hu

/-- Settles O18: in READ mode with the gate taken no move but a give-up with the other policy touches mode or gate. -/
theorem abandonedGateStaysTaken : Obligations.AbandonedGateStaysTaken := fun s t e es he hreset hkeep hm hg h => by
  have hmove (u v : State) (hmove : Move u v) (hu : u.cfg.giveupPolicy = .keep ∧ u.mode = .read ∧ u.gate = .taken) :
      v.cfg.giveupPolicy = .keep ∧ v.mode = .read ∧ v.gate = .taken := by
    obtain ⟨hkeep, hm, hg⟩ := hu
    cases hmove with
    | outside hblock hcfg =>
      obtain ⟨⟨hmode, hgate⟩, -⟩ := hblock
      exact ⟨by rw [hcfg, hkeep], hmode.trans hm, hgate.trans hg⟩
    | start b hfree | fail b hfree | collect hfree => cases hg.symm.trans hfree
    | sendBit hw | sendStop hw | ack d hw => cases hm.symm.trans hw
    | giveup hp => cases hkeep.symm.trans hp
    | startBit | dataBit | parityBit | clear => exact ⟨hkeep, hm, hg⟩
  obtain ⟨-, hm', hg'⟩ := (step_moves he hreset h).keep hmove ⟨hkeep, hm, hg⟩
  exact ⟨hm', hg', fun b k => exec_txStart_busy b k hg'⟩

/-- Settles O27: the reset state is the baseline. -/
theorem resetStateIsTheBaseline : Obligations.ResetStateIsTheBaseline :=
  ⟨inv_of_baseline rfl rfl rfl rfl rfl rfl rfl rfl, ⟨rfl, rfl⟩, ⟨rfl, rfl, rfl⟩, rfl, rfl, rfl, rfl, rfl, rfl, rfl, rfl⟩

/-- Settles O54: an edge operation keeps the register or aborts, every other operation is an event and so a chain of moves. -/
theorem frameRegisterKeepsItsFixedBits : Obligations.FrameRegisterKeepsItsFixedBits := by
  refine ⟨fun i s t hi hs h => ?_, fun b k s t hg h => ?_⟩
  · have hedge {o : EdgeOp} {d : Bit} {k : LineFault} (h : exec (o.toInstr d k) s = .next t) : t.FrameBits := by
      obtain ⟨e, rfl⟩ | ⟨hframe, -⟩ := edgeOp_cases h
      · exact frameBits_abortRead e k hs
      · exact frameBits_congr hframe hs
    have hevent {e : Event} (he : e ≠ .reset) (h : runEvent e s = .next t) : t.FrameBits :=
      (runEvent_moves he h).keep (fun _ _ => Move.frameBits) hs
    cases i with
    | rxStart d k => exact hedge (o := .rxStart) h
    | rxData p d => exact hedge (o := .rxData p) (k := .none) h
    | rxParity d k => exact hedge (o := .rxParity) h
    | rxStop d k => exact hedge (o := .rxStop) h
    | illegal m p => cases h
    | txIgnore => exact hedge (o := .txIgnore) (d := 0#1) (k := .none) h
    | txBit p => exact hedge (o := .txBit p) (d := 0#1) (k := .none) h
    | txStop => exact hedge (o := .txStop) (d := 0#1) (k := .none) h
    | txAck d => exact hedge (o := .txAck) (k := .none) h
    | txStart b k => exact hevent (e := .start b k) nofun h
    | txCollect => exact hevent (e := .collect) nofun h
    | txGiveup => exact hevent (e := .giveup) nofun h
    | reset => exact absurd rfl hi
    | configure f => exact hevent (e := .configure f) nofun h
    | read => exact hevent (e := .read) nofun h
    | enableCb => exact hevent (e := .enableCb) nofun h
    | disableCb => exact hevent (e := .disableCb) nofun h
    | parity b => exact hevent (e := .parity b) nofun h
    | chkpar b r => exact hevent (e := .chkpar b r) nofun h
    | mkframe b => exact hevent (e := .mkframe b) nofun h
    | frame11 p b => exact hevent (e := .frame11 p b) nofun h
    | exchange12 a b => exact hevent (e := .exchange12 a b) nofun h
  · cases h
    obtain ⟨ht, -⟩ | ⟨-, hend⟩ | ⟨-, -, -, hend⟩ := initiate_ends b k s
    · cases hg.symm.trans ht
    · exact frameBits_of_mkFrame (b := b) (by rw [hend]; rfl)
    · exact frameBits_of_mkFrame (b := b) (by rw [hend]; rfl)

/-- Settles O55: the host's events keep the mode, and an edge ends the write at position 11 alone. -/
theorem onlyAckOrResetEndsAWrite : Obligations.OnlyAckOrResetEndsAWrite := fun s t e es hgate hm he h hr => by
  rw [step_eq_runEvent he] at h
  by_cases hreset : e = .reset
  · exact .inl hreset
  by_cases hframe : ∃ p b, e = .frame11 p b
  · exact .inr (.inl hframe)
  by_cases hedge : ∃ c d k, e = .edge c d k
  · obtain ⟨c, d, k, rfl⟩ := hedge
    rw [runEvent_edge] at h
    obtain ⟨-, hend⟩ := edge_during_write (s := s.popEvent) hm h
    exact .inr (.inr ⟨hend hr, c, d, k, rfl⟩)
  · push Not at hframe hedge
    obtain ⟨hmode, -⟩ := runEvent_during_write (s := s.popEvent) (hgate hm) hedge hframe hreset h
    cases (hr.symm.trans hmode).trans hm

/-- Settles O56: neither the host's events nor an edge write the frame register. -/
theorem frameIsImmutableDuringAWrite : Obligations.FrameIsImmutableDuringAWrite :=
  fun s t e es hgate hm he hreset hframe h => by
  rw [step_eq_runEvent he] at h
  by_cases hedge : ∃ c d k, e = .edge c d k
  · obtain ⟨c, d, k, rfl⟩ := hedge
    rw [runEvent_edge] at h
    obtain ⟨hsame, -⟩ := edge_during_write (s := s.popEvent) hm h
    exact hsame
  · push Not at hedge
    obtain ⟨-, hsame⟩ := runEvent_during_write (s := s.popEvent) (hgate hm) hedge hframe hreset h
    exact hsame

/-- Settles O57: each event by the frame of its operation. -/
theorem inboxIsAQueue : Obligations.InboxIsAQueue := fun s t e es he h => by
  rw [step_eq_runEvent he] at h
  obtain ⟨hstart, hcollect, hgiveup, -⟩ := hostOperationsLeaveTheRest s.popEvent t
  obtain ⟨hframe, hexchange⟩ := wireOperationsLeaveTheRest s.popEvent t
  cases e with
  | edge c d k =>
    rw [runEvent_edge] at h
    obtain ⟨-, -, -, hinbox⟩ := edge_frame h
    exact hinbox
  | frame11 p b =>
    obtain ⟨-, -, -, hinbox⟩ := hframe p b h
    exact hinbox
  | exchange12 a b =>
    obtain ⟨-, -, -, hinbox⟩ := hexchange a b h
    exact hinbox
  | start b k =>
    obtain ⟨⟨-, -, hinbox⟩, -⟩ := hstart b k h
    exact hinbox
  | collect =>
    obtain ⟨-, -, -, ⟨-, -, hinbox⟩, -⟩ := hcollect h
    exact hinbox
  | giveup =>
    obtain ⟨-, -, -, -, ⟨-, -, hinbox⟩, -⟩ := hgiveup h
    exact hinbox
  | reset =>
    cases h
    rfl
  | read =>
    obtain ⟨hnil, rfl⟩ | ⟨b, rest, hcons, rfl⟩ := exec_read_next h
    · exact .inl ⟨hnil, hnil⟩
    · exact .inr ⟨b, hcons, rfl⟩
  | enableCb =>
    cases h
    exact setCbEnabled_inbox true s.popEvent
  | disableCb =>
    cases h
    refine (setCbEnabled_inbox false s.popEvent).trans ?_
    cases hcb : s.cbEnabled <;> simp [hcb]
  | configure f => cases f <;> cases h <;> rfl
  | parity | chkpar | mkframe =>
    cases h
    rfl

end

/-!
PROOFS. The trace: every operation commutes with putting outputs before those already given, so it reads none of them.
-/

namespace Sys2Proof.Machine

/-- The state with outputs put before those of its trace. -/
def State.traceAfter (os : List Output) (s : State) : State := { s with trace := os ++ s.trace }

/-- A change of the state a result goes on with. -/
def mapNext (f : State → State) (r : Result) : Result :=
  match r with
  | .next s => .next (f s)
  | .fault e => .fault e
  | .refused e => .refused e

/-- An operation that commutes with earlier outputs. -/
def TraceBlind (f : State → Result) : Prop :=
  ∀ (os : List Output) (s : State), f (s.traceAfter os) = mapNext (State.traceAfter os) (f s)

/-! ## Updates -/

/-- An output goes after the earlier ones. -/
theorem emit_traceAfter (os : List Output) (s : State) (o : Output) :
    (s.traceAfter os).emit o = (s.emit o).traceAfter os := by
  simp [State.emit, State.traceAfter]

/-- An initiation commutes with earlier outputs, and answers the same status. -/
theorem initiate_traceAfter (b : Byte) (k : LineFault) (os : List Output) (s : State) :
    initiate b k (s.traceAfter os) = ((initiate b k s).1.traceAfter os, (initiate b k s).2) := by
  obtain ⟨hg, h⟩ | ⟨hg, h⟩ | ⟨hg, hcfg, hk, h⟩ := initiate_ends b k s
  · rw [h, initiate_busy (s := s.traceAfter os) hg]
  · obtain ⟨hg', h'⟩ | ⟨-, h'⟩ | ⟨-, hcfg, hk, -⟩ := initiate_ends b k (s.traceAfter os)
    · cases hg.symm.trans hg'
    · rw [h, h']
      simp only [writeStarted, State.traceAfter, List.append_assoc]
      rfl
    · rw [initiate_failed b hg hcfg hk] at h
      cases h
  · rw [h, initiate_failed b (s := s.traceAfter os) hg hcfg hk]
    simp only [writeFailed, State.traceAfter, List.append_assoc]
    cases k <;> rfl

/-- An abort commutes with earlier outputs. -/
theorem abortRead_traceAfter (e : ErrorCond) (k : LineFault) (os : List Output) (s : State) :
    abortRead e k (s.traceAfter os) = (abortRead e k s).traceAfter os := by
  have hclear : clearRx ((s.emit (.raised e)).traceAfter os) = (clearRx (s.emit (.raised e))).traceAfter os := rfl
  rw [abortRead, emit_traceAfter, hclear, initiate_traceAfter, abortRead]

/-! ## Results -/

/-- One blind operation after another is blind. -/
theorem traceBlind_andThen {f g : State → Result} (hf : TraceBlind f) (hg : TraceBlind g) :
    TraceBlind fun s => andThen (f s) g := by
  intro os s
  show andThen (f (s.traceAfter os)) g = mapNext _ (andThen (f s) g)
  rw [hf]
  cases f s with
  | next t => exact hg os t
  | fault e => rfl
  | refused e => rfl

/-- A delivery is blind. -/
theorem deliver_traceBlind (b : Byte) : TraceBlind (deliver b) := by
  intro os s
  obtain ⟨f, he, hc, h⟩ | ⟨hcb, h⟩ := deliver_cases b s
  · rw [h, deliver_callback (s := s.traceAfter os) he hc, emit_traceAfter]
    rfl
  · rw [h, deliver_inbox (s := s.traceAfter os) hcb]
    cases hfull : inboxIsFull s with
    | true =>
      rw [appendInbox_full hfull, appendInbox_full (s := s.traceAfter os) hfull]
      rfl
    | false =>
      rw [appendInbox_room hfull, appendInbox_room (s := s.traceAfter os) hfull]
      exact congrArg Host.Outcome.next (emit_traceAfter os { s with inbox := s.inbox ++ [b] } _)

/-- An operation that always aborts is blind. -/
theorem abortRead_traceBlind (e : ErrorCond) (k : LineFault) : TraceBlind fun s => .next (abortRead e k s) :=
  fun os s => congrArg Host.Outcome.next (abortRead_traceAfter e k os s)

/-- RX.START is blind. -/
theorem rxStart_traceBlind (d : Bit) (k : LineFault) : TraceBlind (exec (.rxStart d k)) := by
  obtain rfl | rfl := bit_cases d
  · exact fun _ _ => rfl
  · exact abortRead_traceBlind .frameStart k

/-- RX.PARITY is blind: its check looks at the accumulator. -/
theorem rxParity_traceBlind (d : Bit) (k : LineFault) : TraceBlind (exec (.rxParity d k)) := by
  intro os s
  cases hcheck : chkParity s.rxAcc d with
  | true =>
    rw [exec_rxParity_match hcheck, exec_rxParity_match (s := s.traceAfter os) hcheck]
    rfl
  | false =>
    rw [exec_rxParity_mismatch hcheck, exec_rxParity_mismatch (s := s.traceAfter os) hcheck]
    exact abortRead_traceBlind .parity k os s

/-- RX.STOP is blind. -/
theorem rxStop_traceBlind (d : Bit) (k : LineFault) : TraceBlind (exec (.rxStop d k)) := by
  obtain rfl | rfl := bit_cases d
  · exact abortRead_traceBlind .frameStop k
  · intro os s
    exact traceBlind_andThen (deliver_traceBlind s.rxAcc) (g := fun t => .next (clearRx t)) (fun _ _ => rfl) os s

/-- RX.DATA is blind: it stores its bit or faults. -/
theorem rxData_traceBlind (p : Nat) (d : Bit) : TraceBlind (exec (.rxData p d)) := by
  intro os s
  show execRxData p d (s.traceAfter os) = mapNext _ (execRxData p d s)
  rw [execRxData, execRxData]
  split <;> rfl

/-- The send-bit step commutes with earlier outputs. -/
theorem sendBit_traceAfter (p : Nat) (os : List Output) (s : State) :
    sendBit p (s.traceAfter os) = (sendBit p s).traceAfter os := by
  simp [sendBit, dataSet, State.emit, State.traceAfter]

/-- TX.BIT is blind: it sends its bit or faults. -/
theorem txBit_traceBlind (p : Nat) : TraceBlind (exec (.txBit p)) := by
  intro os s
  show execTxBit p (s.traceAfter os) = mapNext _ (execTxBit p s)
  rw [execTxBit, execTxBit, sendBit_traceAfter]
  split <;> rfl

/-- TX.STOP is blind. -/
theorem txStop_traceBlind : TraceBlind (exec .txStop) := by
  intro os s
  rw [exec_txStop, exec_txStop, dataRelease_sendBit, dataRelease_sendBit]
  simp only [State.traceAfter, List.append_assoc]
  rfl

/-- Every edge operation is blind. -/
theorem edgeOp_traceBlind (o : EdgeOp) (d : Bit) (k : LineFault) : TraceBlind (exec (o.toInstr d k)) := by
  cases o with
  | rxStart => exact rxStart_traceBlind d k
  | rxData p => exact rxData_traceBlind p d
  | rxParity => exact rxParity_traceBlind d k
  | rxStop => exact rxStop_traceBlind d k
  | txBit p => exact txBit_traceBlind p
  | txStop => exact txStop_traceBlind
  | txIgnore | txAck | illegal => exact fun _ _ => rfl

/-- An edge is blind: selection and sampled level do not look at the trace. -/
theorem edge_traceBlind (d : Bit) (k : LineFault) : TraceBlind (edge d k) := by
  intro os s
  obtain hc | hc := s.clkDrv_cases
  · rw [edge_disarmed hc, edge_disarmed (s := s.traceAfter os) hc]
    rfl
  · rw [edge_armed hc, edge_armed (s := s.traceAfter os) hc, runEdgeOp_eq_exec, runEdgeOp_eq_exec]
    exact edgeOp_traceBlind _ _ _ os s

/-- A run of edges is blind. -/
theorem edges_traceBlind (ds : List Bit) : TraceBlind (edges ds) := by
  induction ds with
  | nil => exact fun _ _ => rfl
  | cons d ds ih => exact traceBlind_andThen (edge_traceBlind d .none) ih

/-- An exchange is blind. -/
theorem exchange12_traceBlind (a : Bit) (b : Byte) : TraceBlind (exec (.exchange12 a b)) := by
  intro os s
  obtain hg | hg := s.gate_cases
  · rw [exec_exchange12_busy a b hg, exec_exchange12_busy a b (s := s.traceAfter os) hg]
    exact congrArg Host.Outcome.next (emit_traceAfter os s _)
  · have hstarted : { writeStarted b (s.traceAfter os) with
        trace := (s.traceAfter os).trace ++ initiationActions (s.traceAfter os) ++ [.status .ok] } =
        State.traceAfter os { writeStarted b s with trace := s.trace ++ initiationActions s ++ [.status .ok] } := by
      simp only [writeStarted, State.traceAfter, List.append_assoc]
      rfl
    rw [exec_exchange12_started a b hg, exec_exchange12_started a b (s := s.traceAfter os) hg, hstarted]
    exact edges_traceBlind _ os _

/-- TX.START is blind. -/
theorem txStart_traceBlind (b : Byte) (k : LineFault) : TraceBlind (exec (.txStart b k)) := by
  intro os s
  rw [exec_txStart, exec_txStart, initiate_traceAfter, emit_traceAfter]
  rfl

/-- TX.COLLECT is blind: gate and outcome decide it. -/
theorem txCollect_traceBlind : TraceBlind (exec .txCollect) := by
  intro os s
  obtain hg | hg := s.gate_cases
  · rw [exec_txCollect_taken hg, exec_txCollect_taken (s := s.traceAfter os) hg, emit_traceAfter]
    rfl
  · cases ho : collectStatus s.txOutcome with
    | none =>
      rw [exec_txCollect_refused hg ho, exec_txCollect_refused (s := s.traceAfter os) hg ho]
      rfl
    | some st =>
      rw [exec_txCollect_collected hg ho, exec_txCollect_collected (s := s.traceAfter os) hg ho]
      exact congrArg Host.Outcome.next (emit_traceAfter os { s with txOutcome := .inactive } _)

/-- TX.GIVEUP is blind: the policy decides it. -/
theorem txGiveup_traceBlind : TraceBlind (exec .txGiveup) := by
  intro os s
  cases hp : s.cfg.giveupPolicy with
  | keep =>
    rw [exec_txGiveup_keep hp, exec_txGiveup_keep (s := s.traceAfter os) hp, emit_traceAfter]
    rfl
  | release =>
    rw [exec_txGiveup_release hp, exec_txGiveup_release (s := s.traceAfter os) hp]
    exact congrArg Host.Outcome.next (emit_traceAfter os s.releaseGate _)

/-- A state update followed by one output is blind where the update is. -/
theorem traceBlind_emit {g : State → State} (o : Output) (hg : ∀ os s, g (s.traceAfter os) = (g s).traceAfter os) :
    TraceBlind fun s => .next ((g s).emit o) := by
  intro os s
  show Host.Outcome.next ((g (s.traceAfter os)).emit o) = _
  rw [hg, emit_traceAfter]
  rfl

/-- A toggle of the flag commutes with earlier outputs. -/
theorem setCbEnabled_traceAfter (v : Bool) (os : List Output) (s : State) :
    setCbEnabled v (s.traceAfter os) = (setCbEnabled v s).traceAfter os := by
  by_cases h : s.cbEnabled = v
  · rw [setCbEnabled_same h, setCbEnabled_same (s := s.traceAfter os) h]
  · rw [setCbEnabled_change h, setCbEnabled_change (s := s.traceAfter os) h]
    rfl

/-- READ is blind. -/
theorem read_traceBlind : TraceBlind (exec .read) := by
  intro os s
  cases hi : s.inbox with
  | nil =>
    rw [exec_read_nil hi, exec_read_nil (s := s.traceAfter os) hi, emit_traceAfter]
    rfl
  | cons b rest =>
    rw [exec_read_cons hi, exec_read_cons (s := s.traceAfter os) hi]
    exact congrArg Host.Outcome.next (emit_traceAfter os { s with inbox := rest } _)

/-- Every operation is blind. -/
theorem exec_traceBlind (i : Instr) : TraceBlind (exec i) := by
  cases i with
  | rxStart d k => exact edgeOp_traceBlind .rxStart d k
  | rxData p d => exact edgeOp_traceBlind (.rxData p) d .none
  | rxParity d k => exact edgeOp_traceBlind .rxParity d k
  | rxStop d k => exact edgeOp_traceBlind .rxStop d k
  | illegal m p => exact edgeOp_traceBlind (.illegal m p) 0#1 .none
  | txIgnore => exact edgeOp_traceBlind .txIgnore 0#1 .none
  | txBit p => exact edgeOp_traceBlind (.txBit p) 0#1 .none
  | txStop => exact edgeOp_traceBlind .txStop 0#1 .none
  | txAck d => exact edgeOp_traceBlind .txAck d .none
  | txStart b k => exact txStart_traceBlind b k
  | txCollect => exact txCollect_traceBlind
  | txGiveup => exact txGiveup_traceBlind
  | reset => exact fun _ _ => rfl
  | configure f =>
    cases f with
    | none => exact traceBlind_emit (g := id) _ fun _ _ => rfl
    | some g => exact traceBlind_emit (g := fun s => { s with callback := some g }) _ fun _ _ => rfl
  | read => exact read_traceBlind
  | enableCb => exact traceBlind_emit _ (setCbEnabled_traceAfter true)
  | disableCb => exact traceBlind_emit _ (setCbEnabled_traceAfter false)
  | parity b => exact traceBlind_emit (g := id) _ fun _ _ => rfl
  | chkpar b r => exact traceBlind_emit (g := id) _ fun _ _ => rfl
  | mkframe b => exact traceBlind_emit (g := id) _ fun _ _ => rfl
  | frame11 p b => exact edges_traceBlind (wireBits (frameOf p b))
  | exchange12 a b => exact exchange12_traceBlind a b

end Sys2Proof.Machine

section
open Sys2Proof Sys2Proof.Machine

/-- Settles O59: every run is the run from the empty trace, with the earlier outputs put before its own. -/
theorem traceIsNeverRead : Obligations.TraceIsNeverRead := fun i s os => by
  have hown := exec_traceBlind i s.trace { s with trace := [] }
  have hother := exec_traceBlind i os { s with trace := [] }
  simp only [State.traceAfter, List.append_nil] at hown hother
  rw [hown, hother]
  cases exec i { s with trace := [] } with
  | next u =>
    simp only [mapNext]
    refine ⟨fun t h => ⟨u.trace, ?_⟩, nofun, nofun⟩
    cases h
    exact ⟨rfl, rfl⟩
  | fault e =>
    simp only [mapNext]
    refine ⟨fun _ h => ?_, fun _ h => h, nofun⟩
    cases h
  | refused e =>
    simp only [mapNext]
    refine ⟨fun _ h => ?_, nofun, fun _ h => h⟩
    cases h

end

/-!
PROOFS. The laws of the parity bit: an exclusive or with a mask, and a flip of one bit that pairs the bytes.
-/

namespace Sys2Proof

/-- Flipping one data bit flips the parity bit (R112 (b)). -/
theorem parityOf_flip (b : Byte) {i : Nat} (h : i < 8) : parityOf (b ^^^ (1#8 <<< i)) = ~~~parityOf b := by
  have hmask : ∀ i : Fin 8, parityOf (1#8 <<< i.1) = 0#1 := by decide
  rw [parityOf_xor, hmask ⟨i, h⟩]
  exact BitVec.xor_allOnes

/-- Complementing a byte keeps the parity bit (R112 (c)). -/
theorem parityOf_not (b : Byte) : parityOf (~~~b) = parityOf b := by
  have hones : parityOf (BitVec.allOnes 8) = 1#1 := by decide
  rw [← BitVec.xor_allOnes, parityOf_xor, hones]
  exact BitVec.xor_zero

/-- All bytes, in the order of their numbers. -/
def allBytes : List Byte := (List.range 256).map (BitVec.ofNat 8)

/-- The list of all bytes holds each of them once. -/
theorem allBytes_nodup_mem : allBytes.Nodup ∧ ∀ b, b ∈ allBytes := by
  refine ⟨List.nodup_range.map_on fun m hm n hn h => ?_, fun b => List.mem_map.2 ⟨b.toNat, ?_, ?_⟩⟩
  · have h := congrArg BitVec.toNat h
    rwa [BitVec.toNat_ofNat, BitVec.toNat_ofNat, Nat.mod_eq_of_lt (List.mem_range.1 hm),
      Nat.mod_eq_of_lt (List.mem_range.1 hn)] at h
  · exact List.mem_range.2 b.isLt
  · rw [BitVec.ofNat_toNat, BitVec.setWidth_eq]

/-- Flipping bit 0 pairs the bytes of parity 1 with those of parity 0, so they are half of all bytes (R112 (d)). -/
theorem countP_parityOf_one : allBytes.countP (fun b => parityOf b = 1#1) = 128 := by
  obtain ⟨hnodup, hmem⟩ := allBytes_nodup_mem
  have hflip (b : Byte) : parityOf (b ^^^ 1#8) = ~~~parityOf b := parityOf_flip b (i := 0) (by decide)
  have hperm : (allBytes.map (· ^^^ 1#8)).Perm allBytes :=
    (List.perm_ext_iff_of_nodup (hnodup.map fun _ _ h => (BitVec.xor_left_inj _).1 h) hnodup).2 fun b =>
      ⟨fun _ => hmem b, fun _ => List.mem_map.2 ⟨b ^^^ 1#8, hmem _, by simp⟩⟩
  have hpairs : allBytes.countP (fun b => parityOf b = 1#1) = allBytes.countP (fun b => ¬ parityOf b = 1#1) := by
    rw [← hperm.countP_eq, List.countP_map]
    refine List.countP_congr fun b _ => ?_
    obtain h | h := bit_cases (parityOf b) <;> simp [hflip, h]
  have htotal := List.length_eq_countP_add_countP (fun b => decide (parityOf b = 1#1)) (l := allBytes)
  have hlength : allBytes.length = 256 := by rw [allBytes, List.length_map, List.length_range]
  simp only [decide_eq_true_eq] at htotal
  omega

end Sys2Proof

section
open Sys2Proof

/-- Settles O34: the count of the nine bits, the two masks, and the pairing of the bytes. -/
theorem parityLaws : Obligations.ParityLaws := by
  refine ⟨fun b => ⟨(popcount_add_odd_iff b _).2 rfl, fun i hi => parityOf_flip b hi, parityOf_not b⟩, ?_⟩
  rw [← List.countP_eq_length_filter, ← countP_parityOf_one, allBytes, List.countP_map]
  rfl

end
